-- ==== Sys2Proof/Word.lean ====
section
/-! DEFINITION. The word types of LICC: 32-bit registers and bus words, bytes, bus addresses, and the two names
of an LFSR unit. -/

namespace Sys2Proof

/-- A register, a bus data word, an IDXMEM entry or a command word: 32 bits (00_scope R7, 10_state R34). -/
abbrev Word := BitVec 32

/-- A sample or a keystream byte (00_scope R6). -/
abbrev Byte := BitVec 8

/-- A block-relative byte address on the host bus (20_memory R71, R72). -/
abbrev BusAddr := BitVec 26

/-- An LFSR unit u in the set 0, 1 (10_state R45); the value of the command word's field U (30_encoding R102). -/
inductive LfsrUnit where
  | u0
  | u1
  deriving DecidableEq, Repr

end Sys2Proof
end

