-- ==== Sys2Proof/Syntax.lean ====
section
/-! DEFINITION. The nine commands of LICC (30_encoding R104), one constructor a row of spec/opcode_table.json. -/

namespace Sys2Proof

/-- A command. The only operand field of a command word is the unit selector U (30_encoding R102, R103); every other
operand is a fixed register or memory. -/
inductive Instr where
  /-- NOP (44_system R230). -/
  | nop
  /-- LFSR_SEED u (40_lfsr R136). -/
  | lfsrSeed (u : LfsrUnit)
  /-- LFSR_STEP u (40_lfsr R137). -/
  | lfsrStep (u : LfsrUnit)
  /-- LFSR_GENKS u (40_lfsr R138). -/
  | lfsrGenks (u : LfsrUnit)
  /-- CONFUSE (41_confusion R160). -/
  | confuse
  /-- DIFFUSE u (42_diffusion R184). -/
  | diffuse (u : LfsrUnit)
  /-- UNDIFFUSE (42_diffusion R185). -/
  | undiffuse
  /-- ENCRYPT (43_pipeline R211). -/
  | encrypt
  /-- DECRYPT (43_pipeline R212). -/
  | decrypt
  deriving DecidableEq, Repr

end Sys2Proof
end

