-- ==== Sys2Proof/WellFormed.lean ====
section
/-! DEFINITION. When a command word is well formed: the checks of the one instruction format (30_encoding R101, R102,
R104). A term of Instr needs no check of its own: its one operand is a unit, and LfsrUnit has no value but 0 and 1. -/

namespace Sys2Proof

/-- Field OPCODE, bits [7:0] (30_encoding R101). -/
def Word.opcode (w : Word) : Byte := w.extractLsb' 0 8

/-- Field U, bit [8] (30_encoding R101, R102). -/
def Word.unitBit (w : Word) : Bool := w.getLsbD 8

/-- Field RSV, bits [31:9] (30_encoding R101). -/
def Word.reserved (w : Word) : BitVec 23 := w.extractLsb' 9 23

/-- RSV must be 0 (30_encoding R101). -/
def Word.reservedOk (w : Word) : Bool := w.reserved == 0

/-- The OPCODE values of the map (30_encoding R104) that take no unit. -/
def unitlessOpcodes : List Byte := [0x00, 0x10, 0x21, 0x30, 0x31]

/-- The OPCODE values of the map (30_encoding R104) that take a unit. -/
def unitOpcodes : List Byte := [0x01, 0x02, 0x03, 0x20]

/-- OPCODE must be in the map (30_encoding R104, R106). -/
def Word.opcodeOk (w : Word) : Bool := (unitlessOpcodes ++ unitOpcodes).contains w.opcode

/-- U must be 0 for a command that takes no unit (30_encoding R101, R102, R106). -/
def Word.unitOk (w : Word) : Bool := !(w.unitBit && unitlessOpcodes.contains w.opcode)

/-- A word that is one of the 13 legal command words (30_encoding R104). -/
def Word.wellFormed (w : Word) : Bool := w.reservedOk && w.opcodeOk && w.unitOk

end Sys2Proof
end

