-- ==== Sys2Proof/Decode.lean ====
section
/-! DEFINITION. Decoding a command word, total on every 32-bit word, with each illegal word refused by the name of what is
wrong with it (30_encoding R105, R106), and the encoder, both from the opcode map of R104. -/

namespace Sys2Proof

/-- What makes a word illegal (30_encoding R106): a reserved bit, an OPCODE outside the map, or U = 1 on a command
without a unit. All three end the same way, in IllegalCommand (60_exceptions R243). -/
inductive IllegalReason where
  | reservedBits
  | unknownOpcode
  | unitBitSet
  deriving DecidableEq, Repr

/-- Command | Illegal, the answer of Decode (30_encoding R105). -/
inductive Decoded where
  | command (i : Instr)
  | illegal (why : IllegalReason)
  deriving DecidableEq, Repr

/-- The unit that field U names (30_encoding R102). -/
def LfsrUnit.ofBit (u : Bool) : LfsrUnit := if u then .u1 else .u0

/-- A command without a unit is legal only with U = 0 (30_encoding R105). -/
def unitless (u : Bool) (i : Instr) : Decoded := if u then .illegal .unitBitSet else .command i

/-- Decode of 30_encoding R105. -/
def decode (w : Word) : Decoded :=
  let op := w.opcode
  let u := w.unitBit
  if w.reserved ≠ 0 then .illegal .reservedBits
  else if op = 0x00 then unitless u .nop
  else if op = 0x01 then .command (.lfsrSeed (.ofBit u))
  else if op = 0x02 then .command (.lfsrStep (.ofBit u))
  else if op = 0x03 then .command (.lfsrGenks (.ofBit u))
  else if op = 0x10 then unitless u .confuse
  else if op = 0x20 then .command (.diffuse (.ofBit u))
  else if op = 0x21 then unitless u .undiffuse
  else if op = 0x30 then unitless u .encrypt
  else if op = 0x31 then unitless u .decrypt
  else .illegal .unknownOpcode

/-- The command of a decoded word, if it is one. -/
def Decoded.toInstr : Decoded → Option Instr
  | .command i => some i
  | .illegal _ => none

/-- Bit [8] of a command on unit u (30_encoding R104). -/
def LfsrUnit.bits : LfsrUnit → Word
  | .u0 => 0x000
  | .u1 => 0x100

/-- The word of a command (30_encoding R104). -/
def encode : Instr → Word
  | .nop => 0x00000000
  | .lfsrSeed u => 0x00000001 ||| u.bits
  | .lfsrStep u => 0x00000002 ||| u.bits
  | .lfsrGenks u => 0x00000003 ||| u.bits
  | .confuse => 0x00000010
  | .diffuse u => 0x00000020 ||| u.bits
  | .undiffuse => 0x00000021
  | .encrypt => 0x00000030
  | .decrypt => 0x00000031

/-- The command a word of the opcode table's numbering stands for. Every command is exactly one 32-bit word
(30_encoding R100), so a longer or wider word is none; bits above nbits are 0. -/
def decodeTableWord (nbits w : Nat) : Option Instr :=
  if nbits ≤ 32 ∧ w < 2 ^ 32 then (decode (BitVec.ofNat 32 w)).toInstr else none

end Sys2Proof
end

