-- ==== Sys2Proof/Config.lean ====
section
/-! DEFINITION. What one instance of LICC fixes (00_scope R5) and the free values the spec leaves open. The free values
are opaque: no proof can see what they are, so a claim is true whatever they are. -/

namespace Sys2Proof

/-- The arithmetic of the diffusion index (00_scope R5, 42_diffusion R182). -/
inductive PermIndexMode where
  | binary64
  | exact
  deriving DecidableEq, Repr

/-- The parameters of an instance (00_scope R5), as the parameter registers hold them (10_state R33). The two capacities
are held as a count of quads less one, so that exactly the legal values of R5 can be written: DEDUCED, log entry 3. -/
structure Params where
  /-- MAX_GROUPS / 4 - 1. -/
  groupQuads : Fin 1048576
  /-- KS_MAX / 4 - 1. -/
  ksQuads : Fin 4194304
  /-- PERM_INDEX_MODE. -/
  mode : PermIndexMode
  /-- DIFF_SEED_XOR. -/
  diffSeedXor : Word
  deriving DecidableEq, Repr

/-- MAX_GROUPS: 4 to 2^22, a multiple of 4 (00_scope R5). -/
def Params.maxGroups (p : Params) : Nat := 4 * (p.groupQuads.val + 1)

/-- KS_MAX: 4 to 2^24, a multiple of 4 (00_scope R5). -/
def Params.ksMax (p : Params) : Nat := 4 * (p.ksQuads.val + 1)

/-- The instance's MAX_GROUPS / 4 - 1: OPEN in the spec (92_eei_decisions D15), so no value is chosen. Log entry 3. -/
opaque Config.groupQuads : Fin 1048576

/-- The instance's KS_MAX / 4 - 1: OPEN in the spec (92_eei_decisions D15), so no value is chosen. Log entry 3. -/
opaque Config.ksQuads : Fin 4194304

/-- The instance State.reset starts from: open capacities, and the spec's defaults BINARY64 and 0x00A5A5A5
(00_scope R5). Log entry 4. -/
def Config.params : Params :=
  { groupQuads := Config.groupQuads
    ksQuads := Config.ksQuads
    mode := .binary64
    diffSeedXor := 0x00A5A5A5#32 }

/-- What PIXMEM byte k holds at power-up: a draw (10_state R56, 92 D41). A free value; log entry 5. -/
opaque Config.powerUpPix : Nat → Byte

/-- What IDXMEM entry g holds at power-up: a draw (10_state R56, 92 D41). A free value; log entry 5. -/
opaque Config.powerUpIdx : Nat → Word

/-- What KSMEM byte k holds at power-up: a draw (10_state R56, 92 D41). A free value; log entry 5. -/
opaque Config.powerUpKs : Nat → Byte

/-- The stream of draws made while the machine runs: a read of a running command's write set (70_reset R281) and the
write set of a command aborted by reset (R273). Free values, taken at the counter State.draws; log entry 6. -/
opaque Config.freeWord : Nat → Word

end Sys2Proof
end

