-- ==== Sys2Proof/Machine/State.lean ====
section
/-! DEFINITION. The state of LICC as plain data: every register, the three memories and the engine of 10_state, the
violation mark of 60_exceptions R260 (b), and the model's own fields for the pins. -/

namespace Sys2Proof.Machine

/-- LICC has no trap and no machine fault: a failing command is an ordinary step to a state with ERR not 0, and a bus
error or an overrun sets a status bit (60_exceptions R240, R251, R254, R260 (a)). So no step answers a fault and the type
has no constructor. DEDUCED, safe: log entry 16. -/
inductive Fault where
  deriving DecidableEq, Repr

/-- The refusals of the model. -/
inductive Refusal where
  /-- Raised by exec's arm of an instruction that has no meaning yet; safe. No arm raises it now. -/
  | notModelled (mnemonic : String)
  deriving DecidableEq, Repr

/-- The result codes of STATUS.ERR (60_exceptions R241). Codes 6 to 15 are never produced, so they have no name. -/
inductive ErrCode where
  /-- Code 0: the command succeeded. -/
  | success
  /-- Code 1. -/
  | invalidTapConfiguration
  /-- Code 2. -/
  | invalidPermutation
  /-- Code 3. -/
  | shapeMismatch
  /-- Code 4. -/
  | illegalCommand
  /-- Code 5. -/
  | invalidKeystreamLength
  deriving DecidableEq, Repr

/-- The engine's hidden state (10_state R57): its phase, and the pending command word while it is BUSY. -/
inductive Engine where
  | idle
  | busy (pending : Word)
  deriving DecidableEq, Repr

/-- The four registers of one LFSR unit (10_state R45 to R49). -/
structure LfsrRegs where
  /-- SEED_u (R46). -/
  seed : Word
  /-- TAPS_u (R47). -/
  taps : Word
  /-- ACT_TAPS_u (R48); 0 means the unit is unconstructed. -/
  actTaps : Word
  /-- STATE_u (R49). -/
  state : Word
  deriving DecidableEq, Repr

/-- The registers of the register file (10_state R34), one name an offset. -/
inductive Reg where
  | id
  | maxGroups
  | ksMax
  | features
  | diffXor
  | cmd
  | status
  | height
  | width
  | ksLen
  | idxLen
  | bitOut
  | seed (u : LfsrUnit)
  | taps (u : LfsrUnit)
  | actTaps (u : LfsrUnit)
  | state (u : LfsrUnit)
  | keySeed
  | keyTaps
  deriving DecidableEq, Repr

/-- A host transaction (20_memory R72). -/
inductive HostTxn where
  | read (addr : BusAddr)
  | write (addr : BusAddr) (v : Word)
  deriving DecidableEq, Repr

/-- What happens at LICC next (10_state R30, 70_reset R270, R280): the host's next transaction, the engine's turn, or a
reset. DESIGN CHOICE, log entry 1. -/
inductive Input where
  | host (t : HostTxn)
  | engine
  | reset
  deriving DecidableEq, Repr

/-- A memory: the locations written so far with what they hold, addresses strictly rising. An address that is not listed
has not been written; what it reads as is a free value of Config (10_state R56). Log entry 5. -/
abbrev Memory (w : Nat) := List (Nat × BitVec w)

/-- The state of one LICC. -/
structure State where
  /-- ID, MAXGROUPS, KSMAX, FEATURES and DIFFXOR: the instance's parameters (10_state R33, 00_scope R5). -/
  params : Params
  /-- CMD (10_state R35). -/
  cmd : Word
  /-- The engine's phase and pending word (10_state R57); STATUS.BUSY mirrors the phase (R37). -/
  engine : Engine
  /-- STATUS.ERR (10_state R38). -/
  err : ErrCode
  /-- STATUS.OVERRUN (10_state R39). -/
  overrun : Bool
  /-- STATUS.BUSERR (10_state R40). -/
  buserr : Bool
  /-- HEIGHT (10_state R41). -/
  height : Word
  /-- WIDTH (10_state R41). -/
  width : Word
  /-- KS_LEN (10_state R42). -/
  ksLen : Word
  /-- IDX_LEN (10_state R43). -/
  idxLen : Word
  /-- BIT_OUT[0] (10_state R44); BIT_OUT[31:1] read 0. -/
  bitOut : Bool
  /-- LFSR unit 0 (10_state R45). -/
  unit0 : LfsrRegs
  /-- LFSR unit 1 (10_state R45). -/
  unit1 : LfsrRegs
  /-- KEY_SEED (10_state R50). -/
  keySeed : Word
  /-- KEY_TAPS (10_state R50). -/
  keyTaps : Word
  /-- PIXMEM, by byte (10_state R53). -/
  pixmem : List Host.Cell
  /-- IDXMEM, by entry (10_state R54). -/
  idxmem : List (Nat × Word)
  /-- KSMEM, by byte (10_state R55). -/
  ksmem : List Host.Cell
  /-- The violation mark: set whenever OVERRUN or BUSERR is, never cleared (60_exceptions R260 (b)). Log entry 11. -/
  violation : Bool
  /-- The model's own: the read-data port after the last host read (20_memory R71, R72). Log entry 12. -/
  lastRead : Word
  /-- The model's own: how many words of Config.freeWord the run has used. Log entry 6. -/
  draws : Nat
  /-- The model's own: what happens at LICC next, oldest first. Log entry 1. -/
  inputs : List Input
  deriving DecidableEq, Repr

/-- The answer of an instruction or a step. -/
abbrev Result := Host.Outcome State Fault Refusal

/-- An unconstructed LFSR unit, as reset leaves it (10_state R60). -/
def LfsrRegs.reset : LfsrRegs := { seed := 0, taps := 0, actTaps := 0, state := 0 }

/-- The instance p right after the power-up reset: the register values of 10_state R60 and 70_reset R271, R272, the
memories never written (R56, R274). The model's own fields start empty: DESIGN CHOICE, log entries 2, 6, 11, 12. -/
def State.resetWith (p : Params) : State :=
  { params := p
    cmd := 0
    engine := .idle
    err := .success
    overrun := false
    buserr := false
    height := 0
    width := 0
    ksLen := 0
    idxLen := 0
    bitOut := false
    unit0 := LfsrRegs.reset
    unit1 := LfsrRegs.reset
    keySeed := 0
    keyTaps := 0
    pixmem := []
    idxmem := []
    ksmem := []
    violation := false
    lastRead := 0
    draws := 0
    inputs := [] }

/-- The machine right after the power-up reset (10_state R60, 70_reset R270 to R275). -/
def State.reset : State := State.resetWith Config.params

end Sys2Proof.Machine
end

