-- ==== Sys2Proof/Machine/Flags.lean ====
section
/-! DEFINITION. The STATUS register: the error codes, its fields, and what a host write to it clears (10_state R36 to R40,
60_exceptions R241). -/

namespace Sys2Proof.Machine

/-- The 4-bit value of a result code (60_exceptions R241). -/
def ErrCode.code : ErrCode → BitVec 4
  | .success => 0
  | .invalidTapConfiguration => 1
  | .invalidPermutation => 2
  | .shapeMismatch => 3
  | .illegalCommand => 4
  | .invalidKeystreamLength => 5

/-- STATUS.BUSY mirrors the engine's phase (10_state R37, R57). -/
def State.isBusy (s : State) : Bool :=
  match s.engine with
  | .idle => false
  | .busy _ => true

/-- A one-bit value as a word (00_scope R8, zext). -/
def bitWord (b : Bool) : Word := (BitVec.ofBool b).setWidth 32

/-- What STATUS reads as (10_state R36): BUSY in [0], ERR in [7:4], OVERRUN in [8], BUSERR in [9], the rest 0. -/
def State.statusWord (s : State) : Word :=
  bitWord s.isBusy ||| (s.err.code.setWidth 32 <<< 4) ||| (bitWord s.overrun <<< 8) ||| (bitWord s.buserr <<< 9)

/-- A host write to STATUS: for each of bits 8 and 9, writing 1 clears it; every other written bit is ignored
(10_state R36). -/
def State.clearSticky (s : State) (v : Word) : State :=
  { s with
    overrun := s.overrun && !v.getLsbD 8
    buserr := s.buserr && !v.getLsbD 9 }

/-- A host write dropped because BUSY = 1 (10_state R39, 70_reset R283), recorded as a violation (60_exceptions R260). -/
def State.noteOverrun (s : State) : State := { s with overrun := true, violation := true }

/-- A bus error (20_memory R79, 10_state R40), recorded as a violation (60_exceptions R260). -/
def State.noteBusError (s : State) : State := { s with buserr := true, violation := true }

end Sys2Proof.Machine
end

