-- ==== Sys2Proof/Machine/Ops.lean ====
section
/-! DEFINITION. The named operations over memories, registers and the engine: one home for every read and write, the end
of a command in success or failure, acceptance, and the placing of a command before the engine. -/

namespace Sys2Proof.Machine

/-! ### Memories -/

/-- What a memory lists at an address. -/
def Memory.find? {w : Nat} : Memory w → Nat → Option (BitVec w)
  | [], _ => none
  | (b, v) :: m, a => if a = b then some v else Memory.find? m a

/-- Write one location, keeping the addresses strictly rising. -/
def Memory.write {w : Nat} : Memory w → Nat → BitVec w → Memory w
  | [], a, v => [(a, v)]
  | (b, u) :: m, a, v =>
    if a < b then (a, v) :: (b, u) :: m
    else if a = b then (a, v) :: m
    else (b, u) :: Memory.write m a v

/-- Write a list of values to consecutive locations from a. -/
def Memory.writeFrom {w : Nat} : Memory w → Nat → List (BitVec w) → Memory w
  | m, _, [] => m
  | m, a, v :: vs => Memory.writeFrom (Memory.write m a v) (a + 1) vs

/-- The canonical form: addresses strictly rising (so none twice). A listed entry says "this was written", which no
unlisted address does. Log entry 5. -/
abbrev Memory.wf {w : Nat} (m : Memory w) : Prop := m.Pairwise (fun x y => x.1 < y.1)

/-- Every listed address is below a capacity. -/
abbrev Memory.below {w : Nat} (m : Memory w) (n : Nat) : Prop := ∀ x ∈ m, x.1 < n

/-- PixRead(k) (00_scope R9): a byte nothing has written is a draw (10_state R56). -/
def State.pixRead (s : State) (k : Nat) : Byte := (Memory.find? s.pixmem k).getD (Config.powerUpPix k)

/-- IdxRead(g) (00_scope R9): an entry nothing has written is a draw (10_state R56). -/
def State.idxRead (s : State) (g : Nat) : Word := (Memory.find? s.idxmem g).getD (Config.powerUpIdx g)

/-- KsRead(k) (00_scope R9): a byte nothing has written is a draw (10_state R56). -/
def State.ksRead (s : State) (k : Nat) : Byte := (Memory.find? s.ksmem k).getD (Config.powerUpKs k)

/-- PixWrite of consecutive bytes from k (00_scope R9). -/
def State.pixWrite (s : State) (k : Nat) (vs : List Byte) : State :=
  { s with pixmem := Memory.writeFrom s.pixmem k vs }

/-- IdxWrite of consecutive entries from g (00_scope R9). -/
def State.idxWrite (s : State) (g : Nat) (vs : List Word) : State :=
  { s with idxmem := Memory.writeFrom s.idxmem g vs }

/-- KsWrite of consecutive bytes from k (00_scope R9). -/
def State.ksWrite (s : State) (k : Nat) (vs : List Byte) : State :=
  { s with ksmem := Memory.writeFrom s.ksmem k vs }

/-! ### LFSR units -/

/-- The registers of unit u (10_state R45). -/
def State.unit (s : State) : LfsrUnit → LfsrRegs
  | .u0 => s.unit0
  | .u1 => s.unit1

/-- Replace the registers of unit u (10_state R45). -/
def State.setUnit (s : State) : LfsrUnit → LfsrRegs → State
  | .u0, r => { s with unit0 := r }
  | .u1, r => { s with unit1 := r }

/-! ### Registers the commands write -/

/-- IDX_LEN <- v (10_state R43). -/
def State.setIdxLen (s : State) (v : Word) : State := { s with idxLen := v }

/-- BIT_OUT <- zext_32(f) (10_state R44). -/
def State.setBitOut (s : State) (f : Bool) : State := { s with bitOut := f }

/-! ### The life of a command -/

/-- Acceptance of a CMD write while idle (10_state R35): CMD and the pending word take the word, ERR clears, BUSY sets. -/
def State.accept (s : State) (w : Word) : State :=
  { s with cmd := w, err := .success, engine := .busy w }

/-- The engine returns to IDLE with a result code (10_state R37, R38, R58). -/
def State.finish (s : State) (e : ErrCode) : State := { s with err := e, engine := .idle }

/-- The command ends in success, its writes committed with BUSY <- 0 (10_state R58, 60_exceptions R240). -/
def succeed (s : State) : Result := .next (s.finish .success)

/-- raise E (00_scope R9, 60_exceptions R244): the command ends at once with the code of E and nothing else changed. LICC
takes no trap (R251); this is the one way a command fails, and there is no return from it (R252). -/
def raise (e : ErrCode) (s : State) : Result := .next (s.finish e)

/-- The command the engine is running (10_state R57), if its word is legal. -/
def State.running (s : State) : Option Instr :=
  match s.engine with
  | .idle => none
  | .busy w => (decode w).toInstr

/-- The inputs with the engine's turn next: an empty list is the engine's turn already. -/
def engineNext : List Input → List Input
  | [] => []
  | .engine :: rest => .engine :: rest
  | .host t :: rest => .engine :: .host t :: rest
  | .reset :: rest => .engine :: .reset :: rest

/-- A command word placed before the engine, as an accepted CMD write leaves it (10_state R35), the engine to move next.
Log entry 2. -/
def placeCommand (s : State) (w : Word) : State := { s.accept w with inputs := engineNext s.inputs }

end Sys2Proof.Machine
end

