-- ==== Sys2Proof/Machine/Operands.lean ====
section
/-! DEFINITION. The operands of the commands (30_encoding R103): the shape, the tap configuration, the index array, and
each command's write set (the "Writes" line of its rule, 20_memory R90, 70_reset R281). -/

namespace Sys2Proof.Machine

/-! ### The shape -/

/-- n = HEIGHT * WIDTH, the exact product (10_state R41). -/
def State.groups (s : State) : Nat := s.height.toNat * s.width.toNat

/-- ShapeOk (60_exceptions R245). -/
abbrev State.ShapeOk (s : State) : Prop :=
  1 ≤ s.height.toNat ∧ 1 ≤ s.width.toNat ∧ s.groups ≤ s.params.maxGroups

/-- PIXMEM[0, m) as a list (10_state R53). -/
def State.pixels (s : State) (m : Nat) : List Byte := (List.range m).map s.pixRead

/-! ### The tap configuration -/

/-- size(T) = HighestSetBit(T) + 1 (40_lfsr R132), for T != 0. Every use checks T != 0 first; log entry 20. -/
def tapSize (t : Word) : Nat := t.toNat.log2 + 1

/-- mask(T) = 2^size(T) - 1 (40_lfsr R132). -/
def tapMask (t : Word) : Word := BitVec.ofNat 32 (2 ^ tapSize t - 1)

/-! ### The index array -/

/-- IDXMEM[0, n) as naturals: 32-bit unsigned values (42_diffusion R185). -/
def State.indices (s : State) (n : Nat) : List Nat := (List.range n).map (fun g => (s.idxRead g).toNat)

/-- IsPerm(idx, n) (42_diffusion R185): every entry below n, and no two equal. -/
abbrev IsPerm (idx : List Nat) (n : Nat) : Prop := (∀ v ∈ idx, v < n) ∧ idx.Nodup

/-- inverse[indices[g]] = g for g in [0, n) (42_diffusion R185): entry v is the place at which v stands. -/
def inverse (idx : List Nat) (n : Nat) : List Nat := (List.range n).map (fun v => idx.idxOf v)

/-- The three bytes of each group idx[g] of a buffer, in the order of idx: output[g] = buffer[idx[g]]
(42_diffusion R184, R185; a group is bytes 3g, 3g+1, 3g+2, 10_state R53). -/
def gather (src : Nat → Byte) (idx : List Nat) : List Byte :=
  idx.flatMap (fun p => [src (3 * p), src (3 * p + 1), src (3 * p + 2)])

/-- zext_32 of index values, as IDXMEM stores them (42_diffusion R184). -/
def indexWords (idx : List Nat) : List Word := idx.map (BitVec.ofNat 32)

/-! ### Write sets -/

/-- How many bytes of PIXMEM, from byte 0, are in the command's write set. -/
def State.pixWriteSet (s : State) : Instr → Nat
  | .nop => 0
  | .lfsrSeed _ => 0
  | .lfsrStep _ => 0
  | .lfsrGenks _ => 0
  | .confuse => 3 * s.groups
  | .diffuse _ => 3 * s.groups
  | .undiffuse => 3 * s.groups
  | .encrypt => 3 * s.groups
  | .decrypt => 3 * s.groups

/-- How many entries of IDXMEM, from entry 0, are in the command's write set. -/
def State.idxWriteSet (s : State) : Instr → Nat
  | .nop => 0
  | .lfsrSeed _ => 0
  | .lfsrStep _ => 0
  | .lfsrGenks _ => 0
  | .confuse => 0
  | .diffuse _ => s.groups
  | .undiffuse => 0
  | .encrypt => s.groups
  | .decrypt => 0

/-- How many bytes of KSMEM, from byte 0, are in the command's write set. -/
def State.ksWriteSet (s : State) : Instr → Nat
  | .nop => 0
  | .lfsrSeed _ => 0
  | .lfsrStep _ => 0
  | .lfsrGenks _ => s.ksLen.toNat
  | .confuse => 0
  | .diffuse _ => 0
  | .undiffuse => 0
  | .encrypt => 0
  | .decrypt => 0

/-- The registers in the command's write set. -/
def regWriteSet : Instr → List Reg
  | .nop => []
  | .lfsrSeed u => [.actTaps u, .state u]
  | .lfsrStep u => [.state u, .bitOut]
  | .lfsrGenks u => [.state u]
  | .confuse => []
  | .diffuse u => [.idxLen, .state u]
  | .undiffuse => []
  | .encrypt => [.idxLen]
  | .decrypt => []

/-- How many bytes of PIXMEM the running command may be writing (70_reset R281). Log entry 8. -/
def State.pixBusy (s : State) : Nat := (s.running.map s.pixWriteSet).getD 0

/-- How many entries of IDXMEM the running command may be writing (70_reset R281). Log entry 8. -/
def State.idxBusy (s : State) : Nat := (s.running.map s.idxWriteSet).getD 0

/-- How many bytes of KSMEM the running command may be writing (70_reset R281). Log entry 8. -/
def State.ksBusy (s : State) : Nat := (s.running.map s.ksWriteSet).getD 0

/-- Whether the running command may be writing a register (70_reset R281). Log entry 8. -/
def State.regBusy (s : State) (r : Reg) : Bool := ((s.running.map regWriteSet).getD []).contains r

end Sys2Proof.Machine
end

