-- ==== Sys2Proof/Machine/Bus.lean ====
section
/-! DEFINITION. The host bus (20_memory): the address map, what a read returns and what a write does, idle and while a
command runs (70_reset R281, R283). -/

namespace Sys2Proof.Machine

/-! ### The address map -/

/-- The register map (10_state R34): block-relative offset and register. -/
def regMap : List (Nat × Reg) :=
  [(0x000, .id), (0x004, .maxGroups), (0x008, .ksMax), (0x00C, .features), (0x010, .diffXor),
   (0x020, .cmd), (0x024, .status), (0x028, .height), (0x02C, .width), (0x030, .ksLen), (0x034, .idxLen),
   (0x038, .bitOut)] ++
  [(0x040, .seed .u0), (0x044, .taps .u0), (0x048, .actTaps .u0), (0x04C, .state .u0),
   (0x050, .seed .u1), (0x054, .taps .u1), (0x058, .actTaps .u1), (0x05C, .state .u1),
   (0x060, .keySeed), (0x064, .keyTaps)]

/-- What a block-relative byte address reaches (20_memory R73, R79): a register, a reserved register offset (10_state
R51), the byte of PIXMEM or KSMEM a word starts at, an entry of IDXMEM, or nothing. -/
inductive Target where
  | reg (r : Reg)
  | reserved
  | pix (k : Nat)
  | idx (g : Nat)
  | ks (k : Nat)
  | busError
  deriving DecidableEq, Repr

/-- The address map (20_memory R73), with the bus errors of R79. -/
def busTarget (p : Params) (a : Nat) : Target :=
  if a % 4 ≠ 0 then .busError
  else if a < 0x100 then (regMap.lookup a).elim .reserved .reg
  else if a < 0x1000000 then .busError
  else if a < 0x1000000 + 3 * p.maxGroups then .pix (a - 0x1000000)
  else if a < 0x2000000 then .busError
  else if a < 0x2000000 + 4 * p.maxGroups then .idx ((a - 0x2000000) / 4)
  else if a < 0x3000000 then .busError
  else if a < 0x3000000 + p.ksMax then .ks (a - 0x3000000)
  else .busError

/-! ### Reads -/

/-- FEATURES[0] (10_state R33). -/
def PermIndexMode.bit : PermIndexMode → Bool
  | .binary64 => false
  | .exact => true

/-- What a register holds (10_state R33 to R50). -/
def State.readReg (s : State) : Reg → Word
  | .id => 0x4C465352
  | .maxGroups => BitVec.ofNat 32 s.params.maxGroups
  | .ksMax => BitVec.ofNat 32 s.params.ksMax
  | .features => bitWord (PermIndexMode.bit s.params.mode)
  | .diffXor => s.params.diffSeedXor
  | .cmd => s.cmd
  | .status => s.statusWord
  | .height => s.height
  | .width => s.width
  | .ksLen => s.ksLen
  | .idxLen => s.idxLen
  | .bitOut => bitWord s.bitOut
  | .seed u => (s.unit u).seed
  | .taps u => (s.unit u).taps
  | .actTaps u => (s.unit u).actTaps
  | .state u => (s.unit u).state
  | .keySeed => s.keySeed
  | .keyTaps => s.keyTaps

/-- The bits of a register that are not reserved: a draw leaves BIT_OUT[31:1] at 0 (10_state R44, R51). Log entry 7. -/
def drawnBits : Reg → Word
  | .bitOut => 1
  | _ => 0xFFFFFFFF

/-- The word of four bytes, the byte at the lowest address in bits [7:0] (20_memory R74, R76, R77). -/
def wordOfBytes (b0 b1 b2 b3 : Byte) : Word :=
  b0.setWidth 32 ||| (b1.setWidth 32 <<< 8) ||| (b2.setWidth 32 <<< 16) ||| (b3.setWidth 32 <<< 24)

/-- Byte c of a word, bits [8c+7:8c] (20_memory R74). -/
def wordByte (v : Word) (c : Nat) : Byte := v.extractLsb' (8 * c) 8

/-- The word at a target of a host read. A location in the running command's write set reads as a draw, byte by byte in
the byte memories; every other location as its value (70_reset R281). A bus error or a reserved offset reads 0
(20_memory R79, 10_state R51). -/
def State.readTarget (s : State) (t : Target) : Word :=
  let d := Config.freeWord s.draws
  match t with
  | .reg r => if s.regBusy r then d &&& drawnBits r else s.readReg r
  | .reserved => 0
  | .pix k =>
    let byte := fun c => if k + c < s.pixBusy then wordByte d c else s.pixRead (k + c)
    wordOfBytes (byte 0) (byte 1) (byte 2) (byte 3)
  | .idx g => if g < s.idxBusy then d else s.idxRead g
  | .ks k =>
    let byte := fun c => if k + c < s.ksBusy then wordByte d c else s.ksRead (k + c)
    wordOfBytes (byte 0) (byte 1) (byte 2) (byte 3)
  | .busError => 0

/-- MemRead(addr, 4) (20_memory R72): the word goes to the read-data port. A bus error also sets BUSERR (R79); nothing
else changes (R82). A read while BUSY uses up one draw of the model's own. -/
def hostRead (a : BusAddr) (s : State) : State :=
  let t := busTarget s.params a.toNat
  let s1 := { s with lastRead := s.readTarget t, draws := if s.isBusy then s.draws + 1 else s.draws }
  if t = .busError then s1.noteBusError else s1

/-! ### Writes -/

/-- A host write to a register while idle (10_state R34): RW registers take the word, CMD accepts a command (R35), STATUS
clears sticky bits (R36), the rest ignore it (R52). -/
def State.writeReg (s : State) (v : Word) : Reg → State
  | .id => s
  | .maxGroups => s
  | .ksMax => s
  | .features => s
  | .diffXor => s
  | .cmd => s.accept v
  | .status => s.clearSticky v
  | .height => { s with height := v }
  | .width => { s with width := v }
  | .ksLen => { s with ksLen := v }
  | .idxLen => s.setIdxLen v
  | .bitOut => s
  | .seed u => s.setUnit u { s.unit u with seed := v }
  | .taps u => s.setUnit u { s.unit u with taps := v }
  | .actTaps _ => s
  | .state _ => s
  | .keySeed => { s with keySeed := v }
  | .keyTaps => { s with keyTaps := v }

/-- The four bytes of a word, lowest first (20_memory R74, R76). -/
def bytesOfWord (v : Word) : List Byte := [wordByte v 0, wordByte v 1, wordByte v 2, wordByte v 3]

/-- A host write to a target while idle (20_memory R74 to R76, R79; 10_state R51). -/
def State.writeTarget (s : State) (v : Word) : Target → State
  | .reg r => s.writeReg v r
  | .reserved => s
  | .pix k => s.pixWrite k (bytesOfWord v)
  | .idx g => s.idxWrite g [v]
  | .ks k => s.ksWrite k (bytesOfWord v)
  | .busError => s.noteBusError

/-- MemWrite(addr, 4, v) (20_memory R72). While BUSY, a STATUS write takes effect, a bus error sets BUSERR, and every other
write is dropped with OVERRUN (70_reset R283). -/
def hostWrite (a : BusAddr) (v : Word) (s : State) : State :=
  let t := busTarget s.params a.toNat
  if s.isBusy ∧ t ≠ .reg .status ∧ t ≠ .busError then s.noteOverrun else s.writeTarget v t

/-- One host transaction (20_memory R72). -/
def hostTransaction (t : HostTxn) (s : State) : State :=
  match t with
  | .read a => hostRead a s
  | .write a v => hostWrite a v s

end Sys2Proof.Machine
end

