-- ==== Sys2Proof/Machine/Confusion.lean ====
section
/-! DEFINITION. The confusion transform (41_confusion): the command CONFUSE. -/

namespace Sys2Proof.Machine

/-- CONFUSE (41_confusion R160): byte k is XORed with keystream byte k mod KS_LEN (R161). -/
def execConfuse (s : State) : Result :=
  let n := s.groups
  let l := s.ksLen.toNat
  if ¬ s.ShapeOk then raise .shapeMismatch s
  else if l = 0 ∨ s.params.ksMax < l then raise .invalidKeystreamLength s
  else succeed (s.pixWrite 0 ((List.range (3 * n)).map (fun k => s.pixRead k ^^^ s.ksRead (k % l))))

end Sys2Proof.Machine
end

