-- ==== Sys2Proof/Machine/Lfsr.lean ====
section
/-! DEFINITION. The LFSR generator and keystream packer (40_lfsr): the pure functions LfsrStep, LfsrByte and LfsrBytes, and
the commands LFSR_SEED, LFSR_STEP and LFSR_GENKS. -/

namespace Sys2Proof.Machine

/-- The XOR of the n low bits of v. -/
def parityBelow : Nat → Word → Bool
  | 0, _ => false
  | n + 1, v => v.getLsbD n ^^ parityBelow n v

/-- Parity(v): the XOR of all bits of v (00_scope R8). -/
def parity (v : Word) : Bool := parityBelow 32 v

/-- LfsrStep (40_lfsr R133): the feedback bit and the next state. -/
def lfsrStep (s t : Word) : Bool × Word :=
  let f := parity (s &&& t)
  (f, ((s <<< 1) ||| bitWord f) &&& tapMask t)

/-- k steps of the packer: each bit drawn enters the byte at the right (40_lfsr R135). -/
def lfsrPack : Nat → Byte → Word → Word → Byte × Word
  | 0, b, s, _ => (b, s)
  | k + 1, b, s, t =>
    match lfsrStep s t with
    | (f, s2) => lfsrPack k ((b <<< 1) ||| (BitVec.ofBool f).setWidth 8) s2 t

/-- LfsrByte (40_lfsr R135): eight steps, the first bit drawn ending in bit 7. -/
def lfsrByte (s t : Word) : Byte × Word := lfsrPack 8 0 s t

/-- LfsrBytes (40_lfsr R135): L bytes and the state after them. -/
def lfsrBytes (s t : Word) : Nat → List Byte × Word
  | 0 => ([], s)
  | l + 1 =>
    match lfsrByte s t with
    | (b, s2) =>
      match lfsrBytes s2 t l with
      | (bs, s3) => (b :: bs, s3)

/-- LFSR_SEED u (40_lfsr R136). -/
def execLfsrSeed (u : LfsrUnit) (s : State) : Result :=
  let r := s.unit u
  let t := r.taps
  if t = 0 then raise .invalidTapConfiguration s
  else succeed (s.setUnit u { r with actTaps := t, state := r.seed &&& tapMask t })

/-- LFSR_STEP u (40_lfsr R137). -/
def execLfsrStep (u : LfsrUnit) (s : State) : Result :=
  let r := s.unit u
  let t := r.actTaps
  if t = 0 then raise .invalidTapConfiguration s
  else
    match lfsrStep r.state t with
    | (f, s2) => succeed ((s.setUnit u { r with state := s2 }).setBitOut f)

/-- LFSR_GENKS u (40_lfsr R138). -/
def execLfsrGenks (u : LfsrUnit) (s : State) : Result :=
  let r := s.unit u
  let t := r.actTaps
  if t = 0 then raise .invalidTapConfiguration s
  else if s.params.ksMax < s.ksLen.toNat then raise .invalidKeystreamLength s
  else
    match lfsrBytes r.state t s.ksLen.toNat with
    | (ks, s2) => succeed ((s.ksWrite 0 ks).setUnit u { r with state := s2 })

end Sys2Proof.Machine
end

