-- ==== Sys2Proof/Machine/Diffusion.lean ====
section
/-! DEFINITION. The diffusion permutation and its inverse (42_diffusion): the pure functions PermIndex and Shuffle, and the
commands DIFFUSE and UNDIFFUSE. -/

namespace Sys2Proof.Machine

/-! ### PermIndex -/

/-- PermIndex in mode EXACT (42_diffusion R182). -/
def permIndexExact (b i : Nat) : Nat := b * i / 255

/-- Q[b] of 42_diffusion R183: M and -e with M * 2^e the binary64 value nearest to b/255. For 1 <= b <= 254 the k of the
rule is 60 - HighestSetBit(b): DEDUCED, log entry 15 (Sys2Proof.Laws.quotient255_shift states the rule's own condition). -/
def quotient255 (b : Nat) : Nat × Nat :=
  if b = 0 then (0, 0)
  else if b = 255 then (2 ^ 52, 52)
  else
    let k := 60 - b.log2
    ((b * 2 ^ (k + 1) + 255) / 510, k)

/-- bitlength(p): the number of bits of p (42_diffusion R182). -/
def bitLength (p : Nat) : Nat := if p = 0 then 0 else p.log2 + 1

/-- p rounded to 53 significant bits, ties to even: the significand and the bits dropped (42_diffusion R182). -/
def round53 (p : Nat) : Nat × Nat :=
  if 53 < bitLength p then
    let sh := bitLength p - 53
    let q := p / 2 ^ sh
    let r := p % 2 ^ sh
    let half := 2 ^ (sh - 1)
    (if half < r ∨ (r = half ∧ q % 2 = 1) then q + 1 else q, sh)
  else (p, 0)

/-- PermIndex in mode BINARY64, in its integer form (42_diffusion R182); the exponent e of the rule is sh - k here. -/
def permIndexBinary64 (b i : Nat) : Nat :=
  if b = 0 then 0
  else
    match quotient255 b with
    | (m, k) =>
      match round53 (m * i) with
      | (q, sh) => if k ≤ sh then q * 2 ^ (sh - k) else q / 2 ^ (k - sh)

/-- PermIndex(b, i) (42_diffusion R182). -/
def permIndex : PermIndexMode → Nat → Nat → Nat
  | .binary64, b, i => permIndexBinary64 b i
  | .exact, b, i => permIndexExact b i

/-! ### Shuffle -/

/-- Swap idx[i] and idx[j] (42_diffusion R181). -/
def swapAt (idx : List Nat) (i j : Nat) : List Nat :=
  (idx.set i (idx.getD j 0)).set j (idx.getD i 0)

/-- The loop of Shuffle from i down to 1 (42_diffusion R181): one byte drawn and one swap an iteration. -/
def shuffleFrom (mode : PermIndexMode) (t : Word) : Nat → List Nat → Word → List Nat × Word
  | 0, idx, s => (idx, s)
  | i + 1, idx, s =>
    match lfsrByte s t with
    | (b, s2) => shuffleFrom mode t i (swapAt idx (i + 1) (permIndex mode b.toNat (i + 1))) s2

/-- Shuffle(n, s, T) (42_diffusion R181), for n >= 1. -/
def shuffle (mode : PermIndexMode) (n : Nat) (s t : Word) : List Nat × Word :=
  shuffleFrom mode t (n - 1) (List.range n) s

/-- DIFFUSE u (42_diffusion R184). The gather reads the buffer as it stood at acceptance (R186). -/
def execDiffuse (u : LfsrUnit) (s : State) : Result :=
  let n := s.groups
  let r := s.unit u
  let t := r.actTaps
  if ¬ s.ShapeOk then raise .shapeMismatch s
  else if t = 0 then raise .invalidTapConfiguration s
  else
    match shuffle s.params.mode n r.state t with
    | (idx, s2) =>
      succeed ((((s.pixWrite 0 (gather s.pixRead idx)).idxWrite 0 (indexWords idx)).setIdxLen (BitVec.ofNat 32 n)).setUnit u
        { r with state := s2 })

/-- UNDIFFUSE (42_diffusion R185). -/
def execUndiffuse (s : State) : Result :=
  let n := s.groups
  let idx := s.indices n
  if ¬ s.ShapeOk then raise .shapeMismatch s
  else if s.idxLen.toNat ≠ n then raise .invalidPermutation s
  else if ¬ IsPerm idx n then raise .invalidPermutation s
  else succeed (s.pixWrite 0 (gather s.pixRead (inverse idx n)))

end Sys2Proof.Machine
end

