-- ==== Sys2Proof/Machine/Pipeline.lean ====
section
/-! DEFINITION. The cipher pipeline (43_pipeline): the commands ENCRYPT and DECRYPT, each with hidden generators that
no register shows (10_state R59). -/

namespace Sys2Proof.Machine

/-- The XOR of a buffer with a keystream of its own length (43_pipeline R211 step 2, R212 step 3). -/
def xorBytes (a b : List Byte) : List Byte := List.zipWith (fun x y => x ^^^ y) a b

/-- The state LA starts from: KEY_SEED & mask(T) (43_pipeline R211). -/
def State.confusionSeed (s : State) : Word := s.keySeed &&& tapMask s.keyTaps

/-- The state LB starts from: (KEY_SEED ^ DIFF_SEED_XOR) & mask(T) (43_pipeline R211). -/
def State.diffusionSeed (s : State) : Word := (s.keySeed ^^^ s.params.diffSeedXor) &&& tapMask s.keyTaps

/-- The keystream of LA, of length 3n (43_pipeline R211 step 1, R212 step 2). -/
def State.pipelineKeystream (s : State) : List Byte := (lfsrBytes s.confusionSeed s.keyTaps (3 * s.groups)).1

/-- ENCRYPT (43_pipeline R211): confuse, then diffuse. -/
def execEncrypt (s : State) : Result :=
  let n := s.groups
  let t := s.keyTaps
  if ¬ s.ShapeOk then raise .shapeMismatch s
  else if t = 0 then raise .invalidTapConfiguration s
  else
    let conf := xorBytes (s.pixels (3 * n)) s.pipelineKeystream
    let idx := (shuffle s.params.mode n s.diffusionSeed t).1
    succeed (((s.pixWrite 0 (gather (fun k => conf.getD k 0) idx)).idxWrite 0 (indexWords idx)).setIdxLen (BitVec.ofNat 32 n))

/-- DECRYPT (43_pipeline R212): inverse-diffuse, then de-confuse. -/
def execDecrypt (s : State) : Result :=
  let n := s.groups
  let idx := s.indices n
  if ¬ s.ShapeOk then raise .shapeMismatch s
  else if s.keyTaps = 0 then raise .invalidTapConfiguration s
  else if s.idxLen.toNat ≠ n then raise .invalidPermutation s
  else if ¬ IsPerm idx n then raise .invalidPermutation s
  else succeed (s.pixWrite 0 (xorBytes (gather s.pixRead (inverse idx n)) s.pipelineKeystream))

end Sys2Proof.Machine
end

