-- ==== Sys2Proof/Machine/System.lean ====
section
/-! DEFINITION. The system commands (44_system): NOP, and what an illegal command word does (60_exceptions R243). -/

namespace Sys2Proof.Machine

/-- NOP (44_system R230). -/
def execNop (s : State) : Result := succeed s

/-- An illegal word runs as a command that completes with IllegalCommand and changes nothing else (30_encoding R105,
60_exceptions R243). -/
def execIllegal (s : State) : Result := raise .illegalCommand s

end Sys2Proof.Machine
end

