-- ==== Sys2Proof/Machine/Dispatch.lean ====
section
/-! DEFINITION. The dispatch: the completion step of each command, one arm a constructor. -/

namespace Sys2Proof.Machine

-- The engine's completion step (10_state R58, 70_reset R280) of each command.
def exec (i : Instr) (s : State) : Host.Outcome State Fault Refusal :=
  match i with
  | .nop => Sys2Proof.Machine.execNop s
  | .lfsrSeed u => Sys2Proof.Machine.execLfsrSeed u s
  | .lfsrStep u => Sys2Proof.Machine.execLfsrStep u s
  | .lfsrGenks u => Sys2Proof.Machine.execLfsrGenks u s
  | .confuse => Sys2Proof.Machine.execConfuse s
  | .diffuse u => Sys2Proof.Machine.execDiffuse u s
  | .undiffuse => Sys2Proof.Machine.execUndiffuse s
  | .encrypt => Sys2Proof.Machine.execEncrypt s
  | .decrypt => Sys2Proof.Machine.execDecrypt s

end Sys2Proof.Machine
end

