-- ==== Sys2Proof/Machine/Reset.lean ====
section
/-! DEFINITION. The reset input (70_reset R270 to R274): the registers go to their reset values, the memories stay, and a
reset while BUSY leaves the aborted command's memory write set unspecified. -/

namespace Sys2Proof.Machine

/-- n draws from the counter d on. -/
def freeWords (d n : Nat) : List Word := (List.range n).map (fun k => Config.freeWord (d + k))

/-- n one-byte draws from the counter d on. -/
def freeBytes (d n : Nat) : List Byte := (freeWords d n).map (BitVec.setWidth 8)

/-- The memories after the running command is aborted (70_reset R273): every location of its memory write set holds a draw,
every other location its value. Log entry 9. -/
def State.abort (s : State) : State :=
  let np := min s.pixBusy (3 * s.params.maxGroups)
  let ni := min s.idxBusy s.params.maxGroups
  let nk := min s.ksBusy s.params.ksMax
  let s1 := s.pixWrite 0 (freeBytes s.draws np)
  let s2 := s1.idxWrite 0 (freeWords (s.draws + np) ni)
  let s3 := s2.ksWrite 0 (freeBytes (s.draws + np + ni) nk)
  { s3 with draws := s.draws + np + ni + nk }

/-- A reset (70_reset R271 to R274): every register of 10_state R60 at its reset value, the engine IDLE, the memories as the
abort leaves them. The violation mark is never cleared (60_exceptions R260 (b)); the pins' fields are the model's own.
Log entry 10. -/
def applyReset (s : State) : State :=
  let m := s.abort
  { State.resetWith s.params with
    pixmem := m.pixmem
    idxmem := m.idxmem
    ksmem := m.ksmem
    violation := s.violation
    lastRead := s.lastRead
    draws := m.draws
    inputs := s.inputs }

end Sys2Proof.Machine
end

