-- ==== Sys2Proof/Machine/Step.lean ====
section
/-! DEFINITION. One step of LICC: the host's next transaction, the engine's turn or a reset, as State.inputs says; the
engine's turn when nothing is waiting. -/

namespace Sys2Proof.Machine

/-- The engine's turn (10_state R57, R58, 70_reset R280): while BUSY the pending word is decoded and the command completes;
an illegal word completes with IllegalCommand (60_exceptions R243); while IDLE nothing happens. -/
def engineTurn (s : State) : Result :=
  match s.engine with
  | .idle => .next s
  | .busy w =>
    match decode w with
    | .command i => exec i s
    | .illegal _ => execIllegal s

/-- One step of the machine. -/
def step (s : State) : Host.Outcome State Fault Refusal :=
  match s.inputs with
  | [] => engineTurn s
  | .engine :: rest => engineTurn { s with inputs := rest }
  | .host t :: rest => .next (hostTransaction t { s with inputs := rest })
  | .reset :: rest => .next (applyReset { s with inputs := rest })

/-- s with a command word accepted and the engine to move next, so that the next step decodes and runs it. Every command is
one 32-bit word (30_encoding R100), so nbits is not needed. Log entry 2. -/
def State.withFetchWord (s : State) (_nbits w : Nat) : State := placeCommand s (BitVec.ofNat 32 w)

end Sys2Proof.Machine
end

