-- ==== Sys2Proof/Safety.lean ====
section
/-! DEFINITION. What counts as a good state and a safe run, and the words the statements are written in. -/

namespace Sys2Proof

open Sys2Proof.Machine

/-- p = HighestSetBit(t): the largest set bit of a tap mask (00_scope R8, 40_lfsr R132). -/
abbrev HighestSetBit (t : Word) (p : Nat) : Prop := t.getLsbD p = true ∧ ∀ q, p < q → t.getLsbD q = false

/-- The invariant of one LFSR unit (10_state R49): the register fits in size bits, and is 0 in an unconstructed unit. -/
abbrev UnitOk (r : LfsrRegs) : Prop :=
  (r.actTaps = 0 → r.state = 0) ∧ (r.actTaps ≠ 0 → r.state.toNat < 2 ^ tapSize r.actTaps)

/-- What holds of a LICC in every run from reset. -/
structure StateInv (s : State) : Prop where
  /-- PIXMEM is in canonical form and within its capacity (10_state R53). -/
  pix : Memory.wf s.pixmem ∧ Memory.below s.pixmem (3 * s.params.maxGroups)
  /-- IDXMEM is in canonical form and within its capacity (10_state R54). -/
  idx : Memory.wf s.idxmem ∧ Memory.below s.idxmem s.params.maxGroups
  /-- KSMEM is in canonical form and within its capacity (10_state R55). -/
  ks : Memory.wf s.ksmem ∧ Memory.below s.ksmem s.params.ksMax
  /-- Both units meet the invariant of 10_state R49. -/
  units : UnitOk s.unit0 ∧ UnitOk s.unit1
  /-- CMD holds the pending word (10_state R57), and ERR is 0 while a command runs (R38). -/
  busy : ∀ w, s.engine = .busy w → s.cmd = w ∧ s.err = .success
  /-- Whenever OVERRUN or BUSERR is set, a violation is recorded (60_exceptions R260 (b)). -/
  violation : s.overrun = true ∨ s.buserr = true → s.violation = true

/-- A run without a host-protocol violation (60_exceptions R260 (b), 70_reset R288). -/
abbrev NoViolation (s : State) : Prop := s.violation = false

/-- The state two steps of one command leave, one after the other: the first answer handed on. -/
def andThen (r : Result) (f : State → Result) : Result :=
  match r with
  | .next t => f t
  | .fault e => .fault e
  | .refused e => .refused e

/-- Two states whose pixel buffers agree: the same shape, the same instance, and the same PIXMEM[0, 3n). -/
abbrev SameBuffer (s t : State) : Prop :=
  t.params = s.params ∧ t.height = s.height ∧ t.width = s.width ∧ ∀ k < 3 * s.groups, t.pixRead k = s.pixRead k

/-- Two states whose index arrays agree: the same IDX_LEN and the same IDXMEM[0, n). -/
abbrev SameIndices (s t : State) : Prop :=
  t.idxLen = s.idxLen ∧ ∀ g < s.groups, t.idxRead g = s.idxRead g

/-- A block-relative address that reaches nothing: misaligned, or in an unmapped range (20_memory R73, R79). -/
abbrev Unreachable (p : Params) (a : Nat) : Prop :=
  a % 4 ≠ 0 ∨ (0x100 ≤ a ∧ a < 0x1000000) ∨
  (0x1000000 + 3 * p.maxGroups ≤ a ∧ a < 0x2000000) ∨
  (0x2000000 + 4 * p.maxGroups ≤ a ∧ a < 0x3000000) ∨ 0x3000000 + p.ksMax ≤ a

end Sys2Proof
end

