-- ==== Sys2Proof/Certificates/Slice0/Obligations.lean ====
section
/-! DEFINITION. The statements about LICC, each from a numbered rule of the spec or from several. -/

open Sys2Proof
open Sys2Proof.Machine

/-! ### Encoding -/

/-- 30_encoding R104: the opcode map. The 13 legal words stand for the commands the map gives them, and every other 32-bit
value is illegal. -/
def Obligations.OpcodeMapGivesThirteenLegalWords : Prop :=
  (decode 0x00000000 = .command .nop ∧
   decode 0x00000001 = .command (.lfsrSeed .u0) ∧ decode 0x00000101 = .command (.lfsrSeed .u1) ∧
   decode 0x00000002 = .command (.lfsrStep .u0) ∧ decode 0x00000102 = .command (.lfsrStep .u1) ∧
   decode 0x00000003 = .command (.lfsrGenks .u0) ∧ decode 0x00000103 = .command (.lfsrGenks .u1) ∧
   decode 0x00000010 = .command .confuse ∧
   decode 0x00000020 = .command (.diffuse .u0) ∧ decode 0x00000120 = .command (.diffuse .u1) ∧
   decode 0x00000021 = .command .undiffuse ∧
   decode 0x00000030 = .command .encrypt ∧ decode 0x00000031 = .command .decrypt) ∧
  ∀ w : Word,
    w ∉ ([0x00, 0x01, 0x101, 0x02, 0x102, 0x03, 0x103, 0x10, 0x20, 0x120, 0x21, 0x30, 0x31] : List Word) →
    ∃ why, decode w = .illegal why

/-- Decoding and encoding agree in both directions: a word decodes to a command exactly when it is that command's word, so
no word has two meanings and no bit of a legal word is dropped. -/
def Obligations.DecodeInvertsEncode : Prop :=
  ∀ (w : Word) (i : Instr), decode w = .command i ↔ w = encode i

/-- 30_encoding R106: a word is illegal exactly when a bit of RSV is set, its OPCODE is outside the map, or U = 1 on a
command without a unit; and the well-formedness check of the format says the same. -/
def Obligations.IllegalWordsAreTheReservedOnes : Prop :=
  ∀ w : Word,
    ((∃ why, decode w = .illegal why) ↔
      (512 ≤ w.toNat ∨
       w.toNat % 256 ∉ [0x00, 0x01, 0x02, 0x03, 0x10, 0x20, 0x21, 0x30, 0x31] ∨
       (w.getLsbD 8 = true ∧ w.toNat % 256 ∈ [0x00, 0x10, 0x21, 0x30, 0x31]))) ∧
    (w.wellFormed = true ↔ ∃ i, decode w = .command i)

/-- A few words written out from the map of 30_encoding R104 decode as the map says. -/
def Obligations.SampleWordsDecode : Prop :=
  decode 0x00000120 = .command (.diffuse .u1) ∧ decode 0x00000031 = .command .decrypt ∧
  decode 0x00000100 = .illegal .unitBitSet ∧ decode 0x00000004 = .illegal .unknownOpcode ∧
  decode 0x00000201 = .illegal .reservedBits

/-! ### The step -/

/-- When the pending word decodes to a command and it is the engine's turn (no input waiting, or the engine named next),
step is exec of that command, the turn taken off the inputs. -/
def Obligations.StepRunsTheDecodedCommand : Prop :=
  ∀ (s : State) (w : Word) (i : Instr), s.engine = .busy w → decode w = .command i →
    (s.inputs = [] → step s = exec i s) ∧
    (∀ rest, s.inputs = .engine :: rest → step s = exec i { s with inputs := rest })

/-- 60_exceptions R243: a pending word that decodes to Illegal completes with ERR = 4 and BUSY = 0 and changes nothing else.
(The turn is taken off the model's own inputs.) -/
def Obligations.IllegalWordEndsInIllegalCommand : Prop :=
  ∀ (s : State) (w : Word) (why : IllegalReason), s.engine = .busy w → decode w = .illegal why →
    (s.inputs = [] → step s = .next { s with err := .illegalCommand, engine := .idle }) ∧
    (∀ rest, s.inputs = .engine :: rest →
      step s = .next { s with err := .illegalCommand, engine := .idle, inputs := rest })

/-- The model's own step outside a command: an idle engine waits, a host transaction or a reset that is next takes effect
and is taken off the inputs (log entries 1 and 2). -/
def Obligations.StepFollowsItsInputs : Prop :=
  ∀ s : State,
    (s.engine = .idle → s.inputs = [] → step s = .next s) ∧
    (∀ rest, s.engine = .idle → s.inputs = .engine :: rest → step s = .next { s with inputs := rest }) ∧
    (∀ t rest, s.inputs = .host t :: rest → step s = .next (hostTransaction t { s with inputs := rest })) ∧
    (∀ rest, s.inputs = .reset :: rest → step s = .next (applyReset { s with inputs := rest }))

/-- No step of the machine stops: from every state, whatever the inputs, step answers a next state. -/
def Obligations.EveryStepAnswersANextState : Prop :=
  ∀ s : State, ∃ t, step s = .next t

/-- 10_state R37: STATUS.BUSY rises only when a CMD write is accepted, and falls only at the engine's completion step or a
reset; and on its turn a busy engine does complete (R58, 70_reset R286). That the inputs list names the event and that an
empty list is the engine's turn are the model's choice: log entries 1 and 14. -/
def Obligations.BusyChangesOnlyAtAcceptanceAndCompletion : Prop :=
  (∀ s t : State, step s = .next t → s.isBusy = false → t.isBusy = true →
    ∃ v rest, s.inputs = .host (.write 0x020 v) :: rest ∧ t.engine = .busy v) ∧
  (∀ s t : State, step s = .next t → s.isBusy = true → t.isBusy = false →
    s.inputs = [] ∨ (∃ rest, s.inputs = .engine :: rest) ∨ (∃ rest, s.inputs = .reset :: rest)) ∧
  (∀ s : State, (s.inputs = [] ∨ ∃ rest, s.inputs = .engine :: rest) → ∃ t, step s = .next t ∧ t.isBusy = false)

/-! ### The end of a command -/

/-- 60_exceptions R240, R244: every command ends, the engine IDLE, in success or in a failure that changes nothing but ERR
and BUSY. -/
def Obligations.CommandsSucceedOrChangeNothing : Prop :=
  ∀ (i : Instr) (s : State), ∃ t, exec i s = .next t ∧ t.engine = .idle ∧
    (t.err = .success ∨ t = { s with err := t.err, engine := .idle })

/-- 60_exceptions R248: the code each command reports, its checks taken in the order of the rule's table, and the illegal word
first of all. -/
def Obligations.ChecksAreReportedInOrder : Prop :=
  ∀ (s : State) (u : LfsrUnit),
    (∀ w why, s.engine = .busy w → decode w = .illegal why →
      ∃ t, engineTurn s = .next t ∧ t.err = .illegalCommand) ∧
    (∃ t, exec .nop s = .next t ∧ t.err = .success) ∧
    (∃ t, exec (.lfsrSeed u) s = .next t ∧
      t.err = if (s.unit u).taps = 0 then .invalidTapConfiguration else .success) ∧
    (∃ t, exec (.lfsrStep u) s = .next t ∧
      t.err = if (s.unit u).actTaps = 0 then .invalidTapConfiguration else .success) ∧
    (∃ t, exec (.lfsrGenks u) s = .next t ∧
      t.err = if (s.unit u).actTaps = 0 then .invalidTapConfiguration
        else if s.ksLen.toNat > s.params.ksMax then .invalidKeystreamLength else .success) ∧
    (∃ t, exec .confuse s = .next t ∧
      t.err = if ¬ s.ShapeOk then .shapeMismatch
        else if s.ksLen = 0 ∨ s.ksLen.toNat > s.params.ksMax then .invalidKeystreamLength else .success) ∧
    (∃ t, exec (.diffuse u) s = .next t ∧
      t.err = if ¬ s.ShapeOk then .shapeMismatch
        else if (s.unit u).actTaps = 0 then .invalidTapConfiguration else .success) ∧
    (∃ t, exec .undiffuse s = .next t ∧
      t.err = if ¬ s.ShapeOk then .shapeMismatch
        else if s.idxLen.toNat ≠ s.groups ∨ ¬ IsPerm (s.indices s.groups) s.groups then .invalidPermutation
        else .success) ∧
    (∃ t, exec .encrypt s = .next t ∧
      t.err = if ¬ s.ShapeOk then .shapeMismatch
        else if s.keyTaps = 0 then .invalidTapConfiguration else .success) ∧
    (∃ t, exec .decrypt s = .next t ∧
      t.err = if ¬ s.ShapeOk then .shapeMismatch
        else if s.keyTaps = 0 then .invalidTapConfiguration
        else if s.idxLen.toNat ≠ s.groups ∨ ¬ IsPerm (s.indices s.groups) s.groups then .invalidPermutation
        else .success)

/-- 60_exceptions R249 and 42_diffusion R185: the check IsPerm that UNDIFFUSE and DECRYPT make is that IDXMEM[0, n) is a
bijection of [0, n). -/
def Obligations.IndexCheckIsBijectivity : Prop :=
  ∀ (s : State) (n : Nat),
    IsPerm (s.indices n) n ↔
      ((∀ g < n, (s.idxRead g).toNat < n) ∧ ∀ v < n, ∃ g < n, (s.idxRead g).toNat = v ∧
        ∀ h < n, (s.idxRead h).toNat = v → h = g)

/-! ### The effect of each command, with its frame -/

/-- 44_system R230: NOP changes nothing but ERR <- 0 and BUSY <- 0, always. -/
def Obligations.NopOnlyCompletes : Prop :=
  decode 0x00000000 = .command .nop ∧ decode 0x00000100 = .illegal .unitBitSet ∧
  ∀ s : State, exec .nop s = .next { s with err := .success, engine := .idle }

/-- 40_lfsr R136: LFSR_SEED u with TAPS_u != 0 latches the taps and loads the seed truncated to size bits; with TAPS_u = 0
it raises InvalidTapConfiguration. Nothing else changes. -/
def Obligations.LfsrSeedConstructsTheUnit : Prop :=
  decode 0x00000001 = .command (.lfsrSeed .u0) ∧ decode 0x00000101 = .command (.lfsrSeed .u1) ∧
  ∀ (u : LfsrUnit) (s : State),
    ((s.unit u).taps = 0 →
      exec (.lfsrSeed u) s = .next { s with err := .invalidTapConfiguration, engine := .idle }) ∧
    (∀ p, HighestSetBit (s.unit u).taps p →
      exec (.lfsrSeed u) s = .next
        { s.setUnit u { s.unit u with
            actTaps := (s.unit u).taps
            state := BitVec.ofNat 32 ((s.unit u).seed.toNat % 2 ^ (p + 1)) } with
          err := .success, engine := .idle })

/-- 40_lfsr R137: LFSR_STEP u with ACT_TAPS_u != 0 puts the feedback bit in BIT_OUT and the next state in STATE_u; with
ACT_TAPS_u = 0 it raises InvalidTapConfiguration. Nothing else changes. -/
def Obligations.LfsrStepDrawsOneBit : Prop :=
  decode 0x00000002 = .command (.lfsrStep .u0) ∧ decode 0x00000102 = .command (.lfsrStep .u1) ∧
  ∀ (u : LfsrUnit) (s : State),
    ((s.unit u).actTaps = 0 →
      exec (.lfsrStep u) s = .next { s with err := .invalidTapConfiguration, engine := .idle }) ∧
    ((s.unit u).actTaps ≠ 0 →
      exec (.lfsrStep u) s = .next
        { s.setUnit u { s.unit u with state := (lfsrStep (s.unit u).state (s.unit u).actTaps).2 } with
          bitOut := (lfsrStep (s.unit u).state (s.unit u).actTaps).1, err := .success, engine := .idle })

/-- 40_lfsr R138: LFSR_GENKS u writes KS_LEN keystream bytes to KSMEM and advances STATE_u past them; no KSMEM byte at or
beyond KS_LEN and nothing else changes. Its two failures change nothing but ERR. -/
def Obligations.LfsrGenksWritesTheKeystream : Prop :=
  decode 0x00000003 = .command (.lfsrGenks .u0) ∧ decode 0x00000103 = .command (.lfsrGenks .u1) ∧
  ∀ (u : LfsrUnit) (s : State),
    ((s.unit u).actTaps = 0 →
      exec (.lfsrGenks u) s = .next { s with err := .invalidTapConfiguration, engine := .idle }) ∧
    ((s.unit u).actTaps ≠ 0 → s.ksLen.toNat > s.params.ksMax →
      exec (.lfsrGenks u) s = .next { s with err := .invalidKeystreamLength, engine := .idle }) ∧
    ((s.unit u).actTaps ≠ 0 → s.ksLen.toNat ≤ s.params.ksMax →
      ∃ t, exec (.lfsrGenks u) s = .next t ∧
        (∀ k, t.ksRead k =
          if k < s.ksLen.toNat then (lfsrBytes (s.unit u).state (s.unit u).actTaps s.ksLen.toNat).1.getD k 0
          else s.ksRead k) ∧
        t = { s.setUnit u { s.unit u with
                state := (lfsrBytes (s.unit u).state (s.unit u).actTaps s.ksLen.toNat).2 } with
              ksmem := t.ksmem, err := .success, engine := .idle })

/-- 41_confusion R160, R161: CONFUSE XORs byte k of the buffer with keystream byte k mod KS_LEN; no PIXMEM byte at or
beyond 3n and nothing else changes. Its failures change nothing but ERR. -/
def Obligations.ConfuseXorsTheCyclicKeystream : Prop :=
  decode 0x00000010 = .command .confuse ∧
  ∀ s : State,
    (¬ s.ShapeOk → exec .confuse s = .next { s with err := .shapeMismatch, engine := .idle }) ∧
    (s.ShapeOk → (s.ksLen.toNat = 0 ∨ s.ksLen.toNat > s.params.ksMax) →
      exec .confuse s = .next { s with err := .invalidKeystreamLength, engine := .idle }) ∧
    (s.ShapeOk → 1 ≤ s.ksLen.toNat → s.ksLen.toNat ≤ s.params.ksMax →
      ∃ t, exec .confuse s = .next t ∧
        (∀ k, t.pixRead k =
          if k < 3 * s.groups then s.pixRead k ^^^ s.ksRead (k % s.ksLen.toNat) else s.pixRead k) ∧
        t = { s with pixmem := t.pixmem, err := .success, engine := .idle })

/-- 42_diffusion R184: DIFFUSE u gathers the pixel-groups by the array Shuffle draws from unit u, and leaves that array in
IDXMEM, n in IDX_LEN and the advanced state in STATE_u. No PIXMEM byte at or beyond 3n, no IDXMEM entry at or beyond n and
nothing else changes. Its failures change nothing but ERR. -/
def Obligations.DiffuseGathersByItsShuffle : Prop :=
  decode 0x00000020 = .command (.diffuse .u0) ∧ decode 0x00000120 = .command (.diffuse .u1) ∧
  ∀ (u : LfsrUnit) (s : State),
    (¬ s.ShapeOk → exec (.diffuse u) s = .next { s with err := .shapeMismatch, engine := .idle }) ∧
    (s.ShapeOk → (s.unit u).actTaps = 0 →
      exec (.diffuse u) s = .next { s with err := .invalidTapConfiguration, engine := .idle }) ∧
    (s.ShapeOk → (s.unit u).actTaps ≠ 0 →
      ∀ idx s2, shuffle s.params.mode s.groups (s.unit u).state (s.unit u).actTaps = (idx, s2) →
      ∃ t, exec (.diffuse u) s = .next t ∧
        (∀ g < s.groups, ∀ c < 3, t.pixRead (3 * g + c) = s.pixRead (3 * idx.getD g 0 + c)) ∧
        (∀ k, 3 * s.groups ≤ k → t.pixRead k = s.pixRead k) ∧
        (∀ g < s.groups, t.idxRead g = BitVec.ofNat 32 (idx.getD g 0)) ∧
        (∀ g, s.groups ≤ g → t.idxRead g = s.idxRead g) ∧
        t = { s.setUnit u { s.unit u with state := s2 } with
              pixmem := t.pixmem, idxmem := t.idxmem, idxLen := BitVec.ofNat 32 s.groups,
              err := .success, engine := .idle })

/-- 42_diffusion R185: UNDIFFUSE, with a valid index array, moves pixel-group g to place indices[g] (output[i] =
buffer[inverse[i]] with inverse[indices[g]] = g); no PIXMEM byte at or beyond 3n and nothing else changes. Its failures
change nothing but ERR. -/
def Obligations.UndiffuseGathersByTheInverse : Prop :=
  decode 0x00000021 = .command .undiffuse ∧
  ∀ s : State,
    (¬ s.ShapeOk → exec .undiffuse s = .next { s with err := .shapeMismatch, engine := .idle }) ∧
    (s.ShapeOk → (s.idxLen.toNat ≠ s.groups ∨ ¬ IsPerm (s.indices s.groups) s.groups) →
      exec .undiffuse s = .next { s with err := .invalidPermutation, engine := .idle }) ∧
    (s.ShapeOk → s.idxLen.toNat = s.groups → IsPerm (s.indices s.groups) s.groups →
      ∃ t, exec .undiffuse s = .next t ∧
        (∀ g < s.groups, ∀ c < 3, t.pixRead (3 * (s.idxRead g).toNat + c) = s.pixRead (3 * g + c)) ∧
        (∀ k, 3 * s.groups ≤ k → t.pixRead k = s.pixRead k) ∧
        t = { s with pixmem := t.pixmem, err := .success, engine := .idle })

/-- 43_pipeline R211: ENCRYPT XORs the buffer with LA's keystream and gathers the result by the array Shuffle draws from
LB; it leaves that array in IDXMEM and n in IDX_LEN. No PIXMEM byte at or beyond 3n, no IDXMEM entry at or beyond n and
nothing else changes. Its failures change nothing but ERR. -/
def Obligations.EncryptConfusesThenDiffuses : Prop :=
  decode 0x00000030 = .command .encrypt ∧
  ∀ s : State,
    (¬ s.ShapeOk → exec .encrypt s = .next { s with err := .shapeMismatch, engine := .idle }) ∧
    (s.ShapeOk → s.keyTaps = 0 →
      exec .encrypt s = .next { s with err := .invalidTapConfiguration, engine := .idle }) ∧
    (s.ShapeOk → s.keyTaps ≠ 0 →
      ∀ ksA idx, (lfsrBytes (s.keySeed &&& tapMask s.keyTaps) s.keyTaps (3 * s.groups)).1 = ksA →
      (shuffle s.params.mode s.groups ((s.keySeed ^^^ s.params.diffSeedXor) &&& tapMask s.keyTaps) s.keyTaps).1 = idx →
      ∃ t, exec .encrypt s = .next t ∧
        (∀ g < s.groups, ∀ c < 3, t.pixRead (3 * g + c) =
          s.pixRead (3 * idx.getD g 0 + c) ^^^ ksA.getD (3 * idx.getD g 0 + c) 0) ∧
        (∀ k, 3 * s.groups ≤ k → t.pixRead k = s.pixRead k) ∧
        (∀ g < s.groups, t.idxRead g = BitVec.ofNat 32 (idx.getD g 0)) ∧
        (∀ g, s.groups ≤ g → t.idxRead g = s.idxRead g) ∧
        t = { s with pixmem := t.pixmem, idxmem := t.idxmem, idxLen := BitVec.ofNat 32 s.groups,
                     err := .success, engine := .idle })

/-- 43_pipeline R212: DECRYPT, with a valid index array, moves pixel-group g to place indices[g] and XORs the result with
LA's keystream; no PIXMEM byte at or beyond 3n and nothing else changes. Its failures change nothing but ERR. -/
def Obligations.DecryptUndiffusesThenDeconfuses : Prop :=
  decode 0x00000031 = .command .decrypt ∧
  ∀ s : State,
    (¬ s.ShapeOk → exec .decrypt s = .next { s with err := .shapeMismatch, engine := .idle }) ∧
    (s.ShapeOk → s.keyTaps = 0 →
      exec .decrypt s = .next { s with err := .invalidTapConfiguration, engine := .idle }) ∧
    (s.ShapeOk → s.keyTaps ≠ 0 → (s.idxLen.toNat ≠ s.groups ∨ ¬ IsPerm (s.indices s.groups) s.groups) →
      exec .decrypt s = .next { s with err := .invalidPermutation, engine := .idle }) ∧
    (s.ShapeOk → s.keyTaps ≠ 0 → s.idxLen.toNat = s.groups → IsPerm (s.indices s.groups) s.groups →
      ∀ ksA, (lfsrBytes (s.keySeed &&& tapMask s.keyTaps) s.keyTaps (3 * s.groups)).1 = ksA →
      ∃ t, exec .decrypt s = .next t ∧
        (∀ g < s.groups, ∀ c < 3, t.pixRead (3 * (s.idxRead g).toNat + c) =
          s.pixRead (3 * g + c) ^^^ ksA.getD (3 * (s.idxRead g).toNat + c) 0) ∧
        (∀ k, 3 * s.groups ≤ k → t.pixRead k = s.pixRead k) ∧
        t = { s with pixmem := t.pixmem, err := .success, engine := .idle })

/-! ### The generator -/

/-- 40_lfsr R132: for T != 0 with highest set bit p, size(T) = p + 1, in 1..32, and mask(T) = 2^size(T) - 1. -/
def Obligations.TapMaskIsSizeBitsOfOnes : Prop :=
  ∀ (t : Word) (p : Nat), HighestSetBit t p →
    tapSize t = p + 1 ∧ tapSize t ≤ 32 ∧ (tapMask t).toNat = 2 ^ (p + 1) - 1

/-- 40_lfsr R133: LfsrStep answers the XOR of the tapped bits, and the register shifted left by one with that bit at the
right, masked to size bits; so the next state fits in size bits. -/
def Obligations.LfsrStepShiftsInTheTapParity : Prop :=
  ∀ (s t : Word) (p : Nat), HighestSetBit t p → s.toNat < 2 ^ (p + 1) →
    (lfsrStep s t).1 = decide (((List.range 32).filter (fun q => s.getLsbD q && t.getLsbD q)).length % 2 = 1) ∧
    (lfsrStep s t).2.toNat = (2 * s.toNat + (lfsrStep s t).1.toNat) % 2 ^ (p + 1)

/-- 40_lfsr R134 (a), (b), (c): bits of the state at or above size never reach the stream; the state 0 yields zeros for
ever; and the tap mask 1 repeats its one bit. -/
def Obligations.StreamDependsOnSizeBitsOnly : Prop :=
  (∀ (s t : Word) (l : Nat), t ≠ 0 →
    (lfsrBytes s t l).1 = (lfsrBytes (s &&& tapMask t) t l).1 ∧
    (1 ≤ l → (lfsrBytes s t l).2 = (lfsrBytes (s &&& tapMask t) t l).2)) ∧
  (∀ (t : Word) (l : Nat), lfsrBytes 0 t l = (List.replicate l 0, 0)) ∧
  (∀ s : Word, s.toNat < 2 → lfsrStep s 1 = (s.getLsbD 0, s))

/-- 40_lfsr R135: keystream bit n, in draw order, is bit 7 - (n mod 8) of byte n div 8; the state ends after 8L steps. The
right-hand side iterates LfsrStep alone. -/
def Obligations.KeystreamIsPackedMsbFirst : Prop :=
  ∀ (s t : Word) (l : Nat),
    (lfsrBytes s t l).1.length = l ∧
    (∀ n < 8 * l, ((lfsrBytes s t l).1.getD (n / 8) 0).getLsbD (7 - n % 8) =
      (lfsrStep ((fun x => (lfsrStep x t).2)^[n] s) t).1) ∧
    (lfsrBytes s t l).2 = (fun x => (lfsrStep x t).2)^[8 * l] s

/-- 40_lfsr R139: splitting a stream into two draws changes neither its bytes nor its final state. -/
def Obligations.KeystreamSplitsIntoDraws : Prop :=
  ∀ (s t : Word) (a b : Nat),
    (lfsrBytes s t (a + b)).1 = (lfsrBytes s t a).1 ++ (lfsrBytes (lfsrBytes s t a).2 t b).1 ∧
    (lfsrBytes s t (a + b)).2 = (lfsrBytes (lfsrBytes s t a).2 t b).2

/-- 43_pipeline R215: two different states that fit in size bits give streams that differ within the first
ceil(size / 8) bytes; and with the default DIFF_SEED_XOR the pipeline's two generators start at different states, for every
key. (For KEY_TAPS = 0, where no generator is built and R132 gives no mask, the second clause rests on the model's own size
of the empty mask, log entry 20.) -/
def Obligations.DistinctStatesGiveDistinctStreams : Prop :=
  (∀ (a b t : Word) (p : Nat), HighestSetBit t p → a.toNat < 2 ^ (p + 1) → b.toNat < 2 ^ (p + 1) → a ≠ b →
    (lfsrBytes a t ((p + 1 + 7) / 8)).1 ≠ (lfsrBytes b t ((p + 1 + 7) / 8)).1) ∧
  (∀ s : State, s.params.diffSeedXor = 0x00A5A5A5 → s.confusionSeed ≠ s.diffusionSeed)

/-! ### The permutation -/

/-- 42_diffusion R183: for 1 <= b <= 254 the shift k is the integer with 2^52 <= b * 2^k / 255 < 2^53, and M the quotient
rounded to the nearest integer; Q[0] = (0, 0) and Q[255] is 1.0. -/
def Obligations.QuotientIsTheNearestBinary64 : Prop :=
  quotient255 0 = (0, 0) ∧ quotient255 255 = (2 ^ 52, 52) ∧
  ∀ b : Nat, 1 ≤ b → b ≤ 254 →
    255 * 2 ^ 52 ≤ b * 2 ^ (quotient255 b).2 ∧ b * 2 ^ (quotient255 b).2 < 255 * 2 ^ 53 ∧
    (quotient255 b).1 = (b * 2 ^ ((quotient255 b).2 + 1) + 255) / 510

/-- 42_diffusion R182: the product is rounded to 53 significant bits, to the nearest, ties to even; a product of at most 53
bits is exact. -/
def Obligations.RoundingIsToNearestTiesToEven : Prop :=
  ∀ p : Nat,
    (p < 2 ^ 53 → round53 p = (p, 0)) ∧
    (2 ^ 53 ≤ p → ∀ q sh, round53 p = (q, sh) →
      2 ^ (52 + sh) ≤ p ∧ p < 2 ^ (53 + sh) ∧ 2 ^ 52 ≤ q ∧ q ≤ 2 ^ 53 ∧
      2 * p ≤ (2 * q + 1) * 2 ^ sh ∧ 2 * q * 2 ^ sh ≤ 2 * p + 2 ^ sh ∧
      (2 * p = (2 * q + 1) * 2 ^ sh ∨ 2 * q * 2 ^ sh = 2 * p + 2 ^ sh → q % 2 = 0))

/-- 42_diffusion R187 (a), (b): in both modes the swap partner is in [0, i], and is i exactly for b = 255. -/
def Obligations.SwapPartnerIsInRange : Prop :=
  ∀ (mode : PermIndexMode) (b i : Nat), b ≤ 255 → 1 ≤ i → i < 2 ^ 22 →
    permIndex mode b i ≤ i ∧ (permIndex mode b i = i ↔ b = 255)

/-- 42_diffusion R182: PermIndex is floor(b * i / 255) in mode EXACT, and in mode BINARY64 the floor of the product M_b * i
rounded to 53 significant bits, at the exponent e_b plus the bits dropped (Q[b] and the rounding have statements of their
own). R187 (c): the binary64 index is the exact one or one less, and is less only where 255 divides b * i and b * i > 0. -/
def Obligations.BinaryIndexIsExactOrOneLess : Prop :=
  ∀ b i : Nat, b ≤ 255 → 1 ≤ i → i < 2 ^ 22 →
    permIndex .exact b i = b * i / 255 ∧
    (∀ m k q sh, quotient255 b = (m, k) → round53 (m * i) = (q, sh) →
      permIndex .binary64 b i = q * 2 ^ sh / 2 ^ k) ∧
    (permIndex .binary64 b i = permIndex .exact b i ∨
      (permIndex .binary64 b i + 1 = permIndex .exact b i ∧ 255 ∣ b * i ∧ 0 < b * i))

/-- 42_diffusion R181, R192: Shuffle starts from [0, 1, ..., n-1] and makes n-1 draws; draw k is keystream byte k of the
generator and is made at i = n-1-k; it swaps entries i and j = PermIndex(b, i) of the array the draws before it left; the
final state is that after the n-1 bytes (40_lfsr R141). R188: so the array is a permutation of [0, n). For every n from 1 to
the largest capacity, every mode, state and tap mask (at T = 0, which no command reaches, of the model's own size of the
empty mask: log entry 20). -/
def Obligations.ShuffleDrawsAPermutation : Prop :=
  ∀ (mode : PermIndexMode) (n : Nat) (s t : Word), 1 ≤ n → n ≤ 2 ^ 22 →
    (∃ a : Nat → List Nat, a 0 = List.range n ∧
      (∀ k < n - 1, ∀ i j, i = n - 1 - k → j = permIndex mode ((lfsrBytes s t (n - 1)).1.getD k 0).toNat i →
        (a (k + 1)).length = n ∧
        (a (k + 1)).getD i 0 = (a k).getD j 0 ∧ (a (k + 1)).getD j 0 = (a k).getD i 0 ∧
        ∀ x, x ≠ i → x ≠ j → (a (k + 1)).getD x 0 = (a k).getD x 0) ∧
      shuffle mode n s t = (a (n - 1), (lfsrBytes s t (n - 1)).2)) ∧
    (shuffle mode n s t).1.length = n ∧ IsPerm (shuffle mode n s t).1 n

/-- 42_diffusion R190 and 43_pipeline R217: with one pixel-group diffusion draws nothing. DIFFUSE leaves the buffer and the
unit as they were, ENCRYPT leaves the confused buffer; both leave IDXMEM[0] = 0 and IDX_LEN = 1. -/
def Obligations.OneGroupIsNotDiffused : Prop :=
  ∀ s : State, s.height = 1 → s.width = 1 →
    (∀ u, (s.unit u).actTaps ≠ 0 → ∃ t, exec (.diffuse u) s = .next t ∧
      (∀ k, t.pixRead k = s.pixRead k) ∧ t.unit u = s.unit u ∧ t.idxRead 0 = 0 ∧ t.idxLen = 1) ∧
    (s.keyTaps ≠ 0 → ∃ t, exec .encrypt s = .next t ∧
      (∀ k < 3, t.pixRead k = s.pixRead k ^^^ s.pipelineKeystream.getD k 0) ∧ t.idxRead 0 = 0 ∧ t.idxLen = 1)

/-! ### Commands that undo one another -/

/-- 41_confusion R162: a second CONFUSE with the same shape, KS_LEN and keystream, on the buffer the first left, restores
the buffer. -/
def Obligations.ConfuseTwiceRestoresTheBuffer : Prop :=
  ∀ s : State, s.ShapeOk → 1 ≤ s.ksLen.toNat → s.ksLen.toNat ≤ s.params.ksMax →
    ∃ t, exec .confuse s = .next t ∧ t.err = .success ∧
      ∀ r : State, SameBuffer t r → r.ksLen = s.ksLen → (∀ k < s.ksLen.toNat, r.ksRead k = s.ksRead k) →
        ∃ v, exec .confuse r = .next v ∧ v.err = .success ∧ SameBuffer s v

/-- 42_diffusion R189: UNDIFFUSE on the buffer and the index array DIFFUSE left restores the buffer, whatever the unit's
state was. -/
def Obligations.UndiffuseInvertsDiffuse : Prop :=
  ∀ (u : LfsrUnit) (s : State), s.ShapeOk → (s.unit u).actTaps ≠ 0 →
    ∃ t, exec (.diffuse u) s = .next t ∧ t.err = .success ∧
      ∀ r : State, SameBuffer t r → SameIndices t r →
        ∃ v, exec .undiffuse r = .next v ∧ v.err = .success ∧ SameBuffer s v

/-- 43_pipeline R214, the round trip: DECRYPT on the buffer and the index array ENCRYPT left, with the same key, restores
the plaintext, in both modes and for every key with KEY_TAPS != 0. -/
def Obligations.DecryptInvertsEncrypt : Prop :=
  ∀ s : State, s.ShapeOk → s.keyTaps ≠ 0 →
    ∃ t, exec .encrypt s = .next t ∧ t.err = .success ∧
      ∀ r : State, SameBuffer t r → SameIndices t r → r.keySeed = s.keySeed → r.keyTaps = s.keyTaps →
        ∃ v, exec .decrypt r = .next v ∧ v.err = .success ∧ SameBuffer s v

/-- 43_pipeline R213, first half: with 3n <= KS_MAX and KEY_TAPS != 0, ENCRYPT leaves the same PIXMEM, IDXMEM and IDX_LEN as
LFSR_SEED 0, LFSR_GENKS 0, CONFUSE, LFSR_SEED 1, DIFFUSE 1 with the key in the units (and its seed XORed for unit 1). -/
def Obligations.EncryptEqualsItsPrimitives : Prop :=
  ∀ s : State, s.ShapeOk → s.keyTaps ≠ 0 → 3 * s.groups ≤ s.params.ksMax →
    ∃ t v, exec .encrypt s = .next t ∧ t.err = .success ∧
      andThen (andThen (andThen (andThen
        (exec (.lfsrSeed .u0)
          { s with
            unit0 := { s.unit0 with seed := s.keySeed, taps := s.keyTaps }
            unit1 := { s.unit1 with seed := s.keySeed ^^^ s.params.diffSeedXor, taps := s.keyTaps }
            ksLen := BitVec.ofNat 32 (3 * s.groups) })
        (exec (.lfsrGenks .u0))) (exec .confuse)) (exec (.lfsrSeed .u1))) (exec (.diffuse .u1)) = .next v ∧
      v.err = .success ∧ SameBuffer t v ∧ SameIndices t v

/-- 43_pipeline R213, second half: with 3n <= KS_MAX, KEY_TAPS != 0 and a valid index array, DECRYPT leaves the same PIXMEM
as UNDIFFUSE, LFSR_SEED 0, LFSR_GENKS 0, CONFUSE with the key in unit 0. -/
def Obligations.DecryptEqualsItsPrimitives : Prop :=
  ∀ s : State, s.ShapeOk → s.keyTaps ≠ 0 → 3 * s.groups ≤ s.params.ksMax →
    s.idxLen.toNat = s.groups → IsPerm (s.indices s.groups) s.groups →
    ∃ t v, exec .decrypt s = .next t ∧ t.err = .success ∧
      andThen (andThen (andThen
        (exec .undiffuse
          { s with
            unit0 := { s.unit0 with seed := s.keySeed, taps := s.keyTaps }
            ksLen := BitVec.ofNat 32 (3 * s.groups) })
        (exec (.lfsrSeed .u0))) (exec (.lfsrGenks .u0))) (exec .confuse) = .next v ∧
      v.err = .success ∧ SameBuffer t v

/-! ### What commands leave alone -/

/-- 20_memory R90: a command changes only its write set (and ERR and BUSY, in STATUS). -/
def Obligations.CommandsStayInTheirWriteSet : Prop :=
  ∀ (i : Instr) (s t : State), exec i s = .next t →
    (∀ k, s.pixWriteSet i ≤ k → t.pixRead k = s.pixRead k) ∧
    (∀ g, s.idxWriteSet i ≤ g → t.idxRead g = s.idxRead g) ∧
    (∀ k, s.ksWriteSet i ≤ k → t.ksRead k = s.ksRead k) ∧
    (∀ r, r ≠ .status → r ∉ regWriteSet i → t.readReg r = s.readReg r) ∧
    t.overrun = s.overrun ∧ t.buserr = s.buserr ∧ t.violation = s.violation

/-- 40_lfsr R140: a command on one unit neither reads nor writes the other: replacing the other unit's registers before or
after the command is the same. -/
def Obligations.UnitsAreIndependent : Prop :=
  ∀ (u v : LfsrUnit) (i : Instr) (s : State) (r : LfsrRegs), u ≠ v →
    i ∈ [Instr.lfsrSeed u, .lfsrStep u, .lfsrGenks u, .diffuse u] →
    ∃ t, exec i s = .next t ∧ t.unit v = s.unit v ∧ exec i (s.setUnit v r) = .next (t.setUnit v r)

/-- 43_pipeline R210: ENCRYPT and DECRYPT neither read nor write the units, BIT_OUT, KS_LEN or KSMEM, and leave HEIGHT,
WIDTH, KEY_SEED and KEY_TAPS as they are. -/
def Obligations.PipelineIsSelfContained : Prop :=
  ∀ (i : Instr) (s : State) (a b : LfsrRegs) (o : Bool) (l : Word) (m : List Host.Cell), i = .encrypt ∨ i = .decrypt →
    ∃ t, exec i s = .next t ∧
      t.unit0 = s.unit0 ∧ t.unit1 = s.unit1 ∧ t.bitOut = s.bitOut ∧ t.ksLen = s.ksLen ∧ t.ksmem = s.ksmem ∧
      t.height = s.height ∧ t.width = s.width ∧ t.keySeed = s.keySeed ∧ t.keyTaps = s.keyTaps ∧
      exec i { s with unit0 := a, unit1 := b, bitOut := o, ksLen := l, ksmem := m } =
        .next { t with unit0 := a, unit1 := b, bitOut := o, ksLen := l, ksmem := m }

/-- 10_state R61: HEIGHT and WIDTH enter every command only through n = HEIGHT * WIDTH. -/
def Obligations.ShapeMattersOnlyThroughItsProduct : Prop :=
  ∀ (i : Instr) (s : State) (h w : Word), h.toNat * w.toNat = s.groups →
    ∃ t, exec i s = .next t ∧ exec i { s with height := h, width := w } = .next { t with height := h, width := w }

/-- 10_state R48: ACT_TAPS_u changes only when LFSR_SEED u runs, which takes it from TAPS_u, or at a reset. -/
def Obligations.ActiveTapsChangeOnlyBySeeding : Prop :=
  ∀ (u : LfsrUnit) (s t : State), step s = .next t → (t.unit u).actTaps ≠ (s.unit u).actTaps →
    (∃ w, s.engine = .busy w ∧ decode w = .command (.lfsrSeed u) ∧ (t.unit u).actTaps = (s.unit u).taps) ∨
    (∃ rest, s.inputs = .reset :: rest ∧ (t.unit u).actTaps = 0)

/-! ### The host bus -/

/-- 10_state R33: the parameter registers read as the instance's configuration, busy or not, and ignore writes; nothing that
happens at LICC changes the configuration. -/
def Obligations.ParameterRegistersReadTheConfiguration : Prop :=
  ∀ (s : State) (v : Word),
    (hostRead 0x000 s).lastRead = 0x4C465352 ∧
    (hostRead 0x004 s).lastRead = BitVec.ofNat 32 s.params.maxGroups ∧
    (hostRead 0x008 s).lastRead = BitVec.ofNat 32 s.params.ksMax ∧
    (hostRead 0x00C s).lastRead = (if s.params.mode = .exact then 1 else 0) ∧
    (hostRead 0x010 s).lastRead = s.params.diffSeedXor ∧
    (s.isBusy = false → ∀ a ∈ ([0x000, 0x004, 0x008, 0x00C, 0x010] : List BusAddr), hostWrite a v s = s) ∧
    (∀ t, step s = .next t → t.params = s.params)

/-- 10_state R41 to R43, R46, R47, R50: while idle, an RW register takes the written word and nothing else changes; what is
read back is the word written. -/
def Obligations.WritableRegistersHoldWhatIsWritten : Prop :=
  ∀ (s : State) (v : Word), s.isBusy = false →
    hostWrite 0x028 v s = { s with height := v } ∧ hostWrite 0x02C v s = { s with width := v } ∧
    hostWrite 0x030 v s = { s with ksLen := v } ∧ hostWrite 0x034 v s = { s with idxLen := v } ∧
    hostWrite 0x040 v s = { s with unit0 := { s.unit0 with seed := v } } ∧
    hostWrite 0x044 v s = { s with unit0 := { s.unit0 with taps := v } } ∧
    hostWrite 0x050 v s = { s with unit1 := { s.unit1 with seed := v } } ∧
    hostWrite 0x054 v s = { s with unit1 := { s.unit1 with taps := v } } ∧
    hostWrite 0x060 v s = { s with keySeed := v } ∧ hostWrite 0x064 v s = { s with keyTaps := v } ∧
    ∀ a ∈ ([0x028, 0x02C, 0x030, 0x034, 0x040, 0x044, 0x050, 0x054, 0x060, 0x064] : List BusAddr),
      hostRead a (hostWrite a v s) = { hostWrite a v s with lastRead := v }

/-- 10_state R51, R52: reserved offsets read 0; a write to one, or to a read-only register, changes nothing while idle, and
only sets OVERRUN (and the model's violation mark) while busy. -/
def Obligations.ReadOnlyAndReservedIgnoreWrites : Prop :=
  ∀ (s : State) (a : BusAddr) (v : Word), a.toNat < 0x100 → a.toNat % 4 = 0 →
    a ∉ ([0x020, 0x024, 0x028, 0x02C, 0x030, 0x034, 0x040, 0x044, 0x050, 0x054, 0x060, 0x064] : List BusAddr) →
    (s.isBusy = false → hostWrite a v s = s) ∧
    (s.isBusy = true → hostWrite a v s = { s with overrun := true, violation := true }) ∧
    (a ∉ ([0x000, 0x004, 0x008, 0x00C, 0x010, 0x038, 0x048, 0x04C, 0x058, 0x05C] : List BusAddr) →
      hostRead a s = { s with lastRead := 0, draws := (hostRead a s).draws })

/-- 10_state R35: a CMD write while idle is accepted, whatever the word; one while busy is dropped and sets OVERRUN (and the
model's violation mark). A read returns CMD, the last accepted word, and 0 after reset. -/
def Obligations.CommandWriteIsAcceptedWhenIdle : Prop :=
  ∀ (s : State) (v : Word),
    (s.isBusy = false → hostWrite 0x020 v s = { s with cmd := v, err := .success, engine := .busy v }) ∧
    (s.isBusy = true → hostWrite 0x020 v s = { s with overrun := true, violation := true }) ∧
    (hostRead 0x020 s).lastRead = s.cmd ∧ (hostRead 0x020 State.reset).lastRead = 0

/-- 10_state R36: each bit of STATUS, ERR by the number 60_exceptions R241 gives its name and 0 while a command runs, STATUS
after reset, and the effect of a write to it, busy or not. -/
def Obligations.StatusHasItsFields : Prop :=
  (ErrCode.success.code = 0 ∧ ErrCode.invalidTapConfiguration.code = 1 ∧ ErrCode.invalidPermutation.code = 2 ∧
   ErrCode.shapeMismatch.code = 3 ∧ ErrCode.illegalCommand.code = 4 ∧ ErrCode.invalidKeystreamLength.code = 5) ∧
  (hostRead 0x024 State.reset).lastRead = 0 ∧
  ∀ (s : State) (v : Word),
    (∃ x, (hostRead 0x024 s).lastRead = x ∧
      x.getLsbD 0 = s.isBusy ∧ x.extractLsb' 1 3 = 0 ∧ x.extractLsb' 4 4 = s.err.code ∧
      x.getLsbD 8 = s.overrun ∧ x.getLsbD 9 = s.buserr ∧ x.extractLsb' 10 22 = 0 ∧
      (StateInv s → s.isBusy = true → x.extractLsb' 4 4 = 0)) ∧
    hostWrite 0x024 v s =
      { s with overrun := s.overrun && !v.getLsbD 8, buserr := s.buserr && !v.getLsbD 9 }

/-- 20_memory R79: a bus-error read returns 0, a bus-error write is dropped, either sets BUSERR (and the model's violation
mark); nothing else changes, busy or not (but the model's count of draws at a read). Every other address, a reserved offset
of the register window among them, sets no BUSERR; a STATUS write alone can clear it. -/
def Obligations.UnreachableAddressesSetBusError : Prop :=
  ∀ (s : State) (a : BusAddr) (v : Word),
    (Unreachable s.params a.toNat →
      hostWrite a v s = { s with buserr := true, violation := true } ∧
      hostRead a s = { s with lastRead := 0, buserr := true, violation := true, draws := (hostRead a s).draws }) ∧
    (¬ Unreachable s.params a.toNat →
      (hostRead a s).buserr = s.buserr ∧
      (hostWrite a v s).buserr = (s.buserr && !(decide (a = 0x024) && v.getLsbD 9)))

/-- 20_memory R74, R76: a word written to the PIXMEM or the KSMEM window while idle lands in four bytes, lowest first, and
nothing else changes; a read returns the four bytes in that order. -/
def Obligations.ByteWindowsAreLittleEndian : Prop :=
  (∀ (s : State) (a : Nat) (v : Word), s.isBusy = false → 4 * a < 3 * s.params.maxGroups →
    (∃ t, hostWrite (BitVec.ofNat 26 (0x1000000 + 4 * a)) v s = t ∧
      (∀ c < 4, t.pixRead (4 * a + c) = v.extractLsb' (8 * c) 8) ∧
      (∀ k, k < 4 * a ∨ 4 * a + 4 ≤ k → t.pixRead k = s.pixRead k) ∧
      t = { s with pixmem := t.pixmem }) ∧
    (∃ x, hostRead (BitVec.ofNat 26 (0x1000000 + 4 * a)) s = { s with lastRead := x } ∧
      ∀ c < 4, x.extractLsb' (8 * c) 8 = s.pixRead (4 * a + c))) ∧
  (∀ (s : State) (a : Nat) (v : Word), s.isBusy = false → 4 * a < s.params.ksMax →
    (∃ t, hostWrite (BitVec.ofNat 26 (0x3000000 + 4 * a)) v s = t ∧
      (∀ c < 4, t.ksRead (4 * a + c) = v.extractLsb' (8 * c) 8) ∧
      (∀ k, k < 4 * a ∨ 4 * a + 4 ≤ k → t.ksRead k = s.ksRead k) ∧
      t = { s with ksmem := t.ksmem }) ∧
    (∃ x, hostRead (BitVec.ofNat 26 (0x3000000 + 4 * a)) s = { s with lastRead := x } ∧
      ∀ c < 4, x.extractLsb' (8 * c) 8 = s.ksRead (4 * a + c)))

/-- 20_memory R75: a word written to the IDXMEM window while idle is one entry, stored as written, and nothing else changes;
a read returns the entry. -/
def Obligations.IndexWindowHoldsWholeWords : Prop :=
  ∀ (s : State) (g : Nat) (v : Word), s.isBusy = false → g < s.params.maxGroups →
    (∃ t, hostWrite (BitVec.ofNat 26 (0x2000000 + 4 * g)) v s = t ∧
      t.idxRead g = v ∧ (∀ h, h ≠ g → t.idxRead h = s.idxRead h) ∧ t = { s with idxmem := t.idxmem }) ∧
    hostRead (BitVec.ofNat 26 (0x2000000 + 4 * g)) s = { s with lastRead := s.idxRead g }

/-- 20_memory R82: no host read changes anything but the read-data port, BUSERR at a bus error, and the model's own
violation mark and count of draws. -/
def Obligations.ReadsHaveNoSideEffect : Prop :=
  ∀ (s : State) (a : BusAddr), ∃ x d,
    hostRead a s = { s with lastRead := x, draws := d } ∨
    (Unreachable s.params a.toNat ∧
      hostRead a s = { s with lastRead := x, draws := d, buserr := true, violation := true })

/-- 70_reset R283: while busy a STATUS write takes effect, a bus-error write only sets BUSERR, and every other write is
dropped with OVERRUN (the violation mark of 60_exceptions R260 (b) beside them). -/
def Obligations.WritesWhileBusyAreDropped : Prop :=
  ∀ (s : State) (a : BusAddr) (v : Word), s.isBusy = true →
    hostWrite a v s =
      if Unreachable s.params a.toNat then { s with buserr := true, violation := true }
      else if a = 0x024 then { s with overrun := s.overrun && !v.getLsbD 8, buserr := s.buserr && !v.getLsbD 9 }
      else { s with overrun := true, violation := true }

/-- 70_reset R281: while busy, in a state that meets the invariant, CMD reads as the running word, and STATUS as BUSY = 1,
ERR = 0 and the current OVERRUN and BUSERR; busy or not, in every state, a location outside the running command's write set
(log entry 8) reads as its value. (Inside the write set the model answers a free word of Config, log entry 6.) -/
def Obligations.ReadsOutsideTheWriteSetAreExact : Prop :=
  ∀ s : State,
    (∀ w, StateInv s → s.engine = .busy w →
      (hostRead 0x020 s).lastRead = w ∧
      ∃ x, (hostRead 0x024 s).lastRead = x ∧ x.getLsbD 0 = true ∧ x.extractLsb' 4 4 = 0 ∧
        x.getLsbD 8 = s.overrun ∧ x.getLsbD 9 = s.buserr) ∧
    (∀ off r, (off, r) ∈ regMap → r ∉ (s.running.map regWriteSet).getD [] →
      (hostRead (BitVec.ofNat 26 off) s).lastRead = s.readReg r) ∧
    (∀ g, g < s.params.maxGroups → s.idxBusy ≤ g →
      (hostRead (BitVec.ofNat 26 (0x2000000 + 4 * g)) s).lastRead = s.idxRead g) ∧
    (∀ a, 4 * a < 3 * s.params.maxGroups → ∀ c < 4, s.pixBusy ≤ 4 * a + c →
      (hostRead (BitVec.ofNat 26 (0x1000000 + 4 * a)) s).lastRead.extractLsb' (8 * c) 8 = s.pixRead (4 * a + c)) ∧
    (∀ a, 4 * a < s.params.ksMax → ∀ c < 4, s.ksBusy ≤ 4 * a + c →
      (hostRead (BitVec.ofNat 26 (0x3000000 + 4 * a)) s).lastRead.extractLsb' (8 * c) 8 = s.ksRead (4 * a + c))

/-- 70_reset R280: nothing the host does while the command runs changes what it computes. A host transaction before the
completion gives the state the completion gives alone, with what the transaction itself changed: the two sticky bits, the
read-data port, and the model's own mark and count. -/
def Obligations.HostCannotDisturbARunningCommand : Prop :=
  ∀ (i : Instr) (h : HostTxn) (s : State), s.isBusy = true →
    ∃ t v, exec i s = .next t ∧ hostTransaction h s = v ∧
      v = { s with overrun := v.overrun, buserr := v.buserr, violation := v.violation,
                   lastRead := v.lastRead, draws := v.draws } ∧
      exec i v = .next { t with overrun := v.overrun, buserr := v.buserr, violation := v.violation,
                                lastRead := v.lastRead, draws := v.draws }

/-! ### Reset -/

/-- 10_state R60: what reset leaves (the parameter registers hold the instance's configuration; the memories list
nothing, so every location is a draw). -/
def Obligations.ResetLeavesTheResetValues : Prop :=
  State.reset.params = Config.params ∧ State.reset.cmd = 0 ∧ State.reset.statusWord = 0 ∧
  State.reset.height = 0 ∧ State.reset.width = 0 ∧ State.reset.ksLen = 0 ∧ State.reset.idxLen = 0 ∧
  State.reset.bitOut = false ∧
  State.reset.unit0 = { seed := 0, taps := 0, actTaps := 0, state := 0 } ∧
  State.reset.unit1 = { seed := 0, taps := 0, actTaps := 0, state := 0 } ∧
  State.reset.keySeed = 0 ∧ State.reset.keyTaps = 0 ∧ State.reset.engine = .idle ∧
  State.reset.readReg .id = 0x4C465352 ∧ State.reset.readReg .diffXor = 0x00A5A5A5 ∧
  State.reset.readReg .features = 0 ∧
  State.reset.pixmem = [] ∧ State.reset.idxmem = [] ∧ State.reset.ksmem = []

/-- 70_reset R271 to R274: a reset sets every register but the parameters to 0 and the engine to IDLE; while IDLE it keeps
every memory location, while BUSY every location outside the aborted command's memory write set (log entries 8 and 9), so
every location where the pending word is illegal. That it keeps the violation mark (log entry 11), the read-data port and
the inputs that remain (log entry 10) is the model's choice. -/
def Obligations.ResetClearsRegistersAndKeepsMemory : Prop :=
  ∀ s : State,
    applyReset s =
      { State.resetWith s.params with
        pixmem := (applyReset s).pixmem, idxmem := (applyReset s).idxmem, ksmem := (applyReset s).ksmem
        violation := s.violation, lastRead := s.lastRead, draws := (applyReset s).draws, inputs := s.inputs } ∧
    (s.engine = .idle →
      (applyReset s).pixmem = s.pixmem ∧ (applyReset s).idxmem = s.idxmem ∧ (applyReset s).ksmem = s.ksmem) ∧
    (∀ w i, s.engine = .busy w → decode w = .command i →
      (∀ k, s.pixWriteSet i ≤ k → (applyReset s).pixRead k = s.pixRead k) ∧
      (∀ g, s.idxWriteSet i ≤ g → (applyReset s).idxRead g = s.idxRead g) ∧
      (∀ k, s.ksWriteSet i ≤ k → (applyReset s).ksRead k = s.ksRead k)) ∧
    (∀ w why, s.engine = .busy w → decode w = .illegal why →
      (applyReset s).pixmem = s.pixmem ∧ (applyReset s).idxmem = s.idxmem ∧ (applyReset s).ksmem = s.ksmem)

/-! ### Invariants -/

/-- The invariant holds at reset. -/
def Obligations.ResetMeetsTheInvariant : Prop := StateInv State.reset

/-- Every step keeps the invariant: the memories stay in canonical form and within their capacities, both LFSR registers
fit in size bits (10_state R49), CMD holds the pending word and ERR is 0 while busy (R57, R38), and a set sticky bit has its
violation recorded (60_exceptions R260 (b)). -/
def Obligations.EveryStepKeepsTheInvariant : Prop :=
  ∀ s t : State, StateInv s → step s = .next t → StateInv t

/-- 60_exceptions R260 (b): the violation mark is never cleared, by any step. -/
def Obligations.ViolationIsNeverCleared : Prop :=
  ∀ s t : State, s.violation = true → step s = .next t → t.violation = true
end

