-- ==== Sys2Proof/Laws/State.lean ====
section
/-! SUPPORT. What each named update of the state does to each field, so that no proof unfolds a record update. -/

namespace Sys2Proof.Machine

/-! ### State.finish -/

@[simp] theorem State.finish_params (s : State) (e : ErrCode) : (s.finish e).params = s.params := rfl
@[simp] theorem State.finish_cmd (s : State) (e : ErrCode) : (s.finish e).cmd = s.cmd := rfl
@[simp] theorem State.finish_engine (s : State) (e : ErrCode) : (s.finish e).engine = .idle := rfl
@[simp] theorem State.finish_err (s : State) (e : ErrCode) : (s.finish e).err = e := rfl
@[simp] theorem State.finish_overrun (s : State) (e : ErrCode) : (s.finish e).overrun = s.overrun := rfl
@[simp] theorem State.finish_buserr (s : State) (e : ErrCode) : (s.finish e).buserr = s.buserr := rfl
@[simp] theorem State.finish_height (s : State) (e : ErrCode) : (s.finish e).height = s.height := rfl
@[simp] theorem State.finish_width (s : State) (e : ErrCode) : (s.finish e).width = s.width := rfl
@[simp] theorem State.finish_ksLen (s : State) (e : ErrCode) : (s.finish e).ksLen = s.ksLen := rfl
@[simp] theorem State.finish_idxLen (s : State) (e : ErrCode) : (s.finish e).idxLen = s.idxLen := rfl
@[simp] theorem State.finish_bitOut (s : State) (e : ErrCode) : (s.finish e).bitOut = s.bitOut := rfl
@[simp] theorem State.finish_unit0 (s : State) (e : ErrCode) : (s.finish e).unit0 = s.unit0 := rfl
@[simp] theorem State.finish_unit1 (s : State) (e : ErrCode) : (s.finish e).unit1 = s.unit1 := rfl
@[simp] theorem State.finish_keySeed (s : State) (e : ErrCode) : (s.finish e).keySeed = s.keySeed := rfl
@[simp] theorem State.finish_keyTaps (s : State) (e : ErrCode) : (s.finish e).keyTaps = s.keyTaps := rfl
@[simp] theorem State.finish_pixmem (s : State) (e : ErrCode) : (s.finish e).pixmem = s.pixmem := rfl
@[simp] theorem State.finish_idxmem (s : State) (e : ErrCode) : (s.finish e).idxmem = s.idxmem := rfl
@[simp] theorem State.finish_ksmem (s : State) (e : ErrCode) : (s.finish e).ksmem = s.ksmem := rfl
@[simp] theorem State.finish_violation (s : State) (e : ErrCode) : (s.finish e).violation = s.violation := rfl
@[simp] theorem State.finish_lastRead (s : State) (e : ErrCode) : (s.finish e).lastRead = s.lastRead := rfl
@[simp] theorem State.finish_draws (s : State) (e : ErrCode) : (s.finish e).draws = s.draws := rfl
@[simp] theorem State.finish_inputs (s : State) (e : ErrCode) : (s.finish e).inputs = s.inputs := rfl

/-! ### State.accept -/

@[simp] theorem State.accept_params (s : State) (w : Word) : (s.accept w).params = s.params := rfl
@[simp] theorem State.accept_cmd (s : State) (w : Word) : (s.accept w).cmd = w := rfl
@[simp] theorem State.accept_engine (s : State) (w : Word) : (s.accept w).engine = .busy w := rfl
@[simp] theorem State.accept_err (s : State) (w : Word) : (s.accept w).err = .success := rfl
@[simp] theorem State.accept_overrun (s : State) (w : Word) : (s.accept w).overrun = s.overrun := rfl
@[simp] theorem State.accept_buserr (s : State) (w : Word) : (s.accept w).buserr = s.buserr := rfl
@[simp] theorem State.accept_height (s : State) (w : Word) : (s.accept w).height = s.height := rfl
@[simp] theorem State.accept_width (s : State) (w : Word) : (s.accept w).width = s.width := rfl
@[simp] theorem State.accept_ksLen (s : State) (w : Word) : (s.accept w).ksLen = s.ksLen := rfl
@[simp] theorem State.accept_idxLen (s : State) (w : Word) : (s.accept w).idxLen = s.idxLen := rfl
@[simp] theorem State.accept_bitOut (s : State) (w : Word) : (s.accept w).bitOut = s.bitOut := rfl
@[simp] theorem State.accept_unit0 (s : State) (w : Word) : (s.accept w).unit0 = s.unit0 := rfl
@[simp] theorem State.accept_unit1 (s : State) (w : Word) : (s.accept w).unit1 = s.unit1 := rfl
@[simp] theorem State.accept_keySeed (s : State) (w : Word) : (s.accept w).keySeed = s.keySeed := rfl
@[simp] theorem State.accept_keyTaps (s : State) (w : Word) : (s.accept w).keyTaps = s.keyTaps := rfl
@[simp] theorem State.accept_pixmem (s : State) (w : Word) : (s.accept w).pixmem = s.pixmem := rfl
@[simp] theorem State.accept_idxmem (s : State) (w : Word) : (s.accept w).idxmem = s.idxmem := rfl
@[simp] theorem State.accept_ksmem (s : State) (w : Word) : (s.accept w).ksmem = s.ksmem := rfl
@[simp] theorem State.accept_violation (s : State) (w : Word) : (s.accept w).violation = s.violation := rfl
@[simp] theorem State.accept_lastRead (s : State) (w : Word) : (s.accept w).lastRead = s.lastRead := rfl
@[simp] theorem State.accept_draws (s : State) (w : Word) : (s.accept w).draws = s.draws := rfl
@[simp] theorem State.accept_inputs (s : State) (w : Word) : (s.accept w).inputs = s.inputs := rfl

/-! ### State.clearSticky -/

@[simp] theorem State.clearSticky_params (s : State) (v : Word) : (s.clearSticky v).params = s.params := rfl
@[simp] theorem State.clearSticky_cmd (s : State) (v : Word) : (s.clearSticky v).cmd = s.cmd := rfl
@[simp] theorem State.clearSticky_engine (s : State) (v : Word) : (s.clearSticky v).engine = s.engine := rfl
@[simp] theorem State.clearSticky_err (s : State) (v : Word) : (s.clearSticky v).err = s.err := rfl
@[simp] theorem State.clearSticky_overrun (s : State) (v : Word) : (s.clearSticky v).overrun = (s.overrun && !v.getLsbD 8) := rfl
@[simp] theorem State.clearSticky_buserr (s : State) (v : Word) : (s.clearSticky v).buserr = (s.buserr && !v.getLsbD 9) := rfl
@[simp] theorem State.clearSticky_height (s : State) (v : Word) : (s.clearSticky v).height = s.height := rfl
@[simp] theorem State.clearSticky_width (s : State) (v : Word) : (s.clearSticky v).width = s.width := rfl
@[simp] theorem State.clearSticky_ksLen (s : State) (v : Word) : (s.clearSticky v).ksLen = s.ksLen := rfl
@[simp] theorem State.clearSticky_idxLen (s : State) (v : Word) : (s.clearSticky v).idxLen = s.idxLen := rfl
@[simp] theorem State.clearSticky_bitOut (s : State) (v : Word) : (s.clearSticky v).bitOut = s.bitOut := rfl
@[simp] theorem State.clearSticky_unit0 (s : State) (v : Word) : (s.clearSticky v).unit0 = s.unit0 := rfl
@[simp] theorem State.clearSticky_unit1 (s : State) (v : Word) : (s.clearSticky v).unit1 = s.unit1 := rfl
@[simp] theorem State.clearSticky_keySeed (s : State) (v : Word) : (s.clearSticky v).keySeed = s.keySeed := rfl
@[simp] theorem State.clearSticky_keyTaps (s : State) (v : Word) : (s.clearSticky v).keyTaps = s.keyTaps := rfl
@[simp] theorem State.clearSticky_pixmem (s : State) (v : Word) : (s.clearSticky v).pixmem = s.pixmem := rfl
@[simp] theorem State.clearSticky_idxmem (s : State) (v : Word) : (s.clearSticky v).idxmem = s.idxmem := rfl
@[simp] theorem State.clearSticky_ksmem (s : State) (v : Word) : (s.clearSticky v).ksmem = s.ksmem := rfl
@[simp] theorem State.clearSticky_violation (s : State) (v : Word) : (s.clearSticky v).violation = s.violation := rfl
@[simp] theorem State.clearSticky_lastRead (s : State) (v : Word) : (s.clearSticky v).lastRead = s.lastRead := rfl
@[simp] theorem State.clearSticky_draws (s : State) (v : Word) : (s.clearSticky v).draws = s.draws := rfl
@[simp] theorem State.clearSticky_inputs (s : State) (v : Word) : (s.clearSticky v).inputs = s.inputs := rfl

/-! ### State.noteOverrun -/

@[simp] theorem State.noteOverrun_params (s : State) : (s.noteOverrun).params = s.params := rfl
@[simp] theorem State.noteOverrun_cmd (s : State) : (s.noteOverrun).cmd = s.cmd := rfl
@[simp] theorem State.noteOverrun_engine (s : State) : (s.noteOverrun).engine = s.engine := rfl
@[simp] theorem State.noteOverrun_err (s : State) : (s.noteOverrun).err = s.err := rfl
@[simp] theorem State.noteOverrun_overrun (s : State) : (s.noteOverrun).overrun = true := rfl
@[simp] theorem State.noteOverrun_buserr (s : State) : (s.noteOverrun).buserr = s.buserr := rfl
@[simp] theorem State.noteOverrun_height (s : State) : (s.noteOverrun).height = s.height := rfl
@[simp] theorem State.noteOverrun_width (s : State) : (s.noteOverrun).width = s.width := rfl
@[simp] theorem State.noteOverrun_ksLen (s : State) : (s.noteOverrun).ksLen = s.ksLen := rfl
@[simp] theorem State.noteOverrun_idxLen (s : State) : (s.noteOverrun).idxLen = s.idxLen := rfl
@[simp] theorem State.noteOverrun_bitOut (s : State) : (s.noteOverrun).bitOut = s.bitOut := rfl
@[simp] theorem State.noteOverrun_unit0 (s : State) : (s.noteOverrun).unit0 = s.unit0 := rfl
@[simp] theorem State.noteOverrun_unit1 (s : State) : (s.noteOverrun).unit1 = s.unit1 := rfl
@[simp] theorem State.noteOverrun_keySeed (s : State) : (s.noteOverrun).keySeed = s.keySeed := rfl
@[simp] theorem State.noteOverrun_keyTaps (s : State) : (s.noteOverrun).keyTaps = s.keyTaps := rfl
@[simp] theorem State.noteOverrun_pixmem (s : State) : (s.noteOverrun).pixmem = s.pixmem := rfl
@[simp] theorem State.noteOverrun_idxmem (s : State) : (s.noteOverrun).idxmem = s.idxmem := rfl
@[simp] theorem State.noteOverrun_ksmem (s : State) : (s.noteOverrun).ksmem = s.ksmem := rfl
@[simp] theorem State.noteOverrun_violation (s : State) : (s.noteOverrun).violation = true := rfl
@[simp] theorem State.noteOverrun_lastRead (s : State) : (s.noteOverrun).lastRead = s.lastRead := rfl
@[simp] theorem State.noteOverrun_draws (s : State) : (s.noteOverrun).draws = s.draws := rfl
@[simp] theorem State.noteOverrun_inputs (s : State) : (s.noteOverrun).inputs = s.inputs := rfl

/-! ### State.noteBusError -/

@[simp] theorem State.noteBusError_params (s : State) : (s.noteBusError).params = s.params := rfl
@[simp] theorem State.noteBusError_cmd (s : State) : (s.noteBusError).cmd = s.cmd := rfl
@[simp] theorem State.noteBusError_engine (s : State) : (s.noteBusError).engine = s.engine := rfl
@[simp] theorem State.noteBusError_err (s : State) : (s.noteBusError).err = s.err := rfl
@[simp] theorem State.noteBusError_overrun (s : State) : (s.noteBusError).overrun = s.overrun := rfl
@[simp] theorem State.noteBusError_buserr (s : State) : (s.noteBusError).buserr = true := rfl
@[simp] theorem State.noteBusError_height (s : State) : (s.noteBusError).height = s.height := rfl
@[simp] theorem State.noteBusError_width (s : State) : (s.noteBusError).width = s.width := rfl
@[simp] theorem State.noteBusError_ksLen (s : State) : (s.noteBusError).ksLen = s.ksLen := rfl
@[simp] theorem State.noteBusError_idxLen (s : State) : (s.noteBusError).idxLen = s.idxLen := rfl
@[simp] theorem State.noteBusError_bitOut (s : State) : (s.noteBusError).bitOut = s.bitOut := rfl
@[simp] theorem State.noteBusError_unit0 (s : State) : (s.noteBusError).unit0 = s.unit0 := rfl
@[simp] theorem State.noteBusError_unit1 (s : State) : (s.noteBusError).unit1 = s.unit1 := rfl
@[simp] theorem State.noteBusError_keySeed (s : State) : (s.noteBusError).keySeed = s.keySeed := rfl
@[simp] theorem State.noteBusError_keyTaps (s : State) : (s.noteBusError).keyTaps = s.keyTaps := rfl
@[simp] theorem State.noteBusError_pixmem (s : State) : (s.noteBusError).pixmem = s.pixmem := rfl
@[simp] theorem State.noteBusError_idxmem (s : State) : (s.noteBusError).idxmem = s.idxmem := rfl
@[simp] theorem State.noteBusError_ksmem (s : State) : (s.noteBusError).ksmem = s.ksmem := rfl
@[simp] theorem State.noteBusError_violation (s : State) : (s.noteBusError).violation = true := rfl
@[simp] theorem State.noteBusError_lastRead (s : State) : (s.noteBusError).lastRead = s.lastRead := rfl
@[simp] theorem State.noteBusError_draws (s : State) : (s.noteBusError).draws = s.draws := rfl
@[simp] theorem State.noteBusError_inputs (s : State) : (s.noteBusError).inputs = s.inputs := rfl

/-! ### State.setIdxLen -/

@[simp] theorem State.setIdxLen_params (s : State) (v : Word) : (s.setIdxLen v).params = s.params := rfl
@[simp] theorem State.setIdxLen_cmd (s : State) (v : Word) : (s.setIdxLen v).cmd = s.cmd := rfl
@[simp] theorem State.setIdxLen_engine (s : State) (v : Word) : (s.setIdxLen v).engine = s.engine := rfl
@[simp] theorem State.setIdxLen_err (s : State) (v : Word) : (s.setIdxLen v).err = s.err := rfl
@[simp] theorem State.setIdxLen_overrun (s : State) (v : Word) : (s.setIdxLen v).overrun = s.overrun := rfl
@[simp] theorem State.setIdxLen_buserr (s : State) (v : Word) : (s.setIdxLen v).buserr = s.buserr := rfl
@[simp] theorem State.setIdxLen_height (s : State) (v : Word) : (s.setIdxLen v).height = s.height := rfl
@[simp] theorem State.setIdxLen_width (s : State) (v : Word) : (s.setIdxLen v).width = s.width := rfl
@[simp] theorem State.setIdxLen_ksLen (s : State) (v : Word) : (s.setIdxLen v).ksLen = s.ksLen := rfl
@[simp] theorem State.setIdxLen_idxLen (s : State) (v : Word) : (s.setIdxLen v).idxLen = v := rfl
@[simp] theorem State.setIdxLen_bitOut (s : State) (v : Word) : (s.setIdxLen v).bitOut = s.bitOut := rfl
@[simp] theorem State.setIdxLen_unit0 (s : State) (v : Word) : (s.setIdxLen v).unit0 = s.unit0 := rfl
@[simp] theorem State.setIdxLen_unit1 (s : State) (v : Word) : (s.setIdxLen v).unit1 = s.unit1 := rfl
@[simp] theorem State.setIdxLen_keySeed (s : State) (v : Word) : (s.setIdxLen v).keySeed = s.keySeed := rfl
@[simp] theorem State.setIdxLen_keyTaps (s : State) (v : Word) : (s.setIdxLen v).keyTaps = s.keyTaps := rfl
@[simp] theorem State.setIdxLen_pixmem (s : State) (v : Word) : (s.setIdxLen v).pixmem = s.pixmem := rfl
@[simp] theorem State.setIdxLen_idxmem (s : State) (v : Word) : (s.setIdxLen v).idxmem = s.idxmem := rfl
@[simp] theorem State.setIdxLen_ksmem (s : State) (v : Word) : (s.setIdxLen v).ksmem = s.ksmem := rfl
@[simp] theorem State.setIdxLen_violation (s : State) (v : Word) : (s.setIdxLen v).violation = s.violation := rfl
@[simp] theorem State.setIdxLen_lastRead (s : State) (v : Word) : (s.setIdxLen v).lastRead = s.lastRead := rfl
@[simp] theorem State.setIdxLen_draws (s : State) (v : Word) : (s.setIdxLen v).draws = s.draws := rfl
@[simp] theorem State.setIdxLen_inputs (s : State) (v : Word) : (s.setIdxLen v).inputs = s.inputs := rfl

/-! ### State.setBitOut -/

@[simp] theorem State.setBitOut_params (s : State) (f : Bool) : (s.setBitOut f).params = s.params := rfl
@[simp] theorem State.setBitOut_cmd (s : State) (f : Bool) : (s.setBitOut f).cmd = s.cmd := rfl
@[simp] theorem State.setBitOut_engine (s : State) (f : Bool) : (s.setBitOut f).engine = s.engine := rfl
@[simp] theorem State.setBitOut_err (s : State) (f : Bool) : (s.setBitOut f).err = s.err := rfl
@[simp] theorem State.setBitOut_overrun (s : State) (f : Bool) : (s.setBitOut f).overrun = s.overrun := rfl
@[simp] theorem State.setBitOut_buserr (s : State) (f : Bool) : (s.setBitOut f).buserr = s.buserr := rfl
@[simp] theorem State.setBitOut_height (s : State) (f : Bool) : (s.setBitOut f).height = s.height := rfl
@[simp] theorem State.setBitOut_width (s : State) (f : Bool) : (s.setBitOut f).width = s.width := rfl
@[simp] theorem State.setBitOut_ksLen (s : State) (f : Bool) : (s.setBitOut f).ksLen = s.ksLen := rfl
@[simp] theorem State.setBitOut_idxLen (s : State) (f : Bool) : (s.setBitOut f).idxLen = s.idxLen := rfl
@[simp] theorem State.setBitOut_bitOut (s : State) (f : Bool) : (s.setBitOut f).bitOut = f := rfl
@[simp] theorem State.setBitOut_unit0 (s : State) (f : Bool) : (s.setBitOut f).unit0 = s.unit0 := rfl
@[simp] theorem State.setBitOut_unit1 (s : State) (f : Bool) : (s.setBitOut f).unit1 = s.unit1 := rfl
@[simp] theorem State.setBitOut_keySeed (s : State) (f : Bool) : (s.setBitOut f).keySeed = s.keySeed := rfl
@[simp] theorem State.setBitOut_keyTaps (s : State) (f : Bool) : (s.setBitOut f).keyTaps = s.keyTaps := rfl
@[simp] theorem State.setBitOut_pixmem (s : State) (f : Bool) : (s.setBitOut f).pixmem = s.pixmem := rfl
@[simp] theorem State.setBitOut_idxmem (s : State) (f : Bool) : (s.setBitOut f).idxmem = s.idxmem := rfl
@[simp] theorem State.setBitOut_ksmem (s : State) (f : Bool) : (s.setBitOut f).ksmem = s.ksmem := rfl
@[simp] theorem State.setBitOut_violation (s : State) (f : Bool) : (s.setBitOut f).violation = s.violation := rfl
@[simp] theorem State.setBitOut_lastRead (s : State) (f : Bool) : (s.setBitOut f).lastRead = s.lastRead := rfl
@[simp] theorem State.setBitOut_draws (s : State) (f : Bool) : (s.setBitOut f).draws = s.draws := rfl
@[simp] theorem State.setBitOut_inputs (s : State) (f : Bool) : (s.setBitOut f).inputs = s.inputs := rfl

/-! ### State.pixWrite -/

@[simp] theorem State.pixWrite_params (s : State) (k : Nat) (vs : List Byte) : (s.pixWrite k vs).params = s.params := rfl
@[simp] theorem State.pixWrite_cmd (s : State) (k : Nat) (vs : List Byte) : (s.pixWrite k vs).cmd = s.cmd := rfl
@[simp] theorem State.pixWrite_engine (s : State) (k : Nat) (vs : List Byte) : (s.pixWrite k vs).engine = s.engine := rfl
@[simp] theorem State.pixWrite_err (s : State) (k : Nat) (vs : List Byte) : (s.pixWrite k vs).err = s.err := rfl
@[simp] theorem State.pixWrite_overrun (s : State) (k : Nat) (vs : List Byte) : (s.pixWrite k vs).overrun = s.overrun := rfl
@[simp] theorem State.pixWrite_buserr (s : State) (k : Nat) (vs : List Byte) : (s.pixWrite k vs).buserr = s.buserr := rfl
@[simp] theorem State.pixWrite_height (s : State) (k : Nat) (vs : List Byte) : (s.pixWrite k vs).height = s.height := rfl
@[simp] theorem State.pixWrite_width (s : State) (k : Nat) (vs : List Byte) : (s.pixWrite k vs).width = s.width := rfl
@[simp] theorem State.pixWrite_ksLen (s : State) (k : Nat) (vs : List Byte) : (s.pixWrite k vs).ksLen = s.ksLen := rfl
@[simp] theorem State.pixWrite_idxLen (s : State) (k : Nat) (vs : List Byte) : (s.pixWrite k vs).idxLen = s.idxLen := rfl
@[simp] theorem State.pixWrite_bitOut (s : State) (k : Nat) (vs : List Byte) : (s.pixWrite k vs).bitOut = s.bitOut := rfl
@[simp] theorem State.pixWrite_unit0 (s : State) (k : Nat) (vs : List Byte) : (s.pixWrite k vs).unit0 = s.unit0 := rfl
@[simp] theorem State.pixWrite_unit1 (s : State) (k : Nat) (vs : List Byte) : (s.pixWrite k vs).unit1 = s.unit1 := rfl
@[simp] theorem State.pixWrite_keySeed (s : State) (k : Nat) (vs : List Byte) : (s.pixWrite k vs).keySeed = s.keySeed := rfl
@[simp] theorem State.pixWrite_keyTaps (s : State) (k : Nat) (vs : List Byte) : (s.pixWrite k vs).keyTaps = s.keyTaps := rfl
@[simp] theorem State.pixWrite_pixmem (s : State) (k : Nat) (vs : List Byte) : (s.pixWrite k vs).pixmem = Memory.writeFrom s.pixmem k vs := rfl
@[simp] theorem State.pixWrite_idxmem (s : State) (k : Nat) (vs : List Byte) : (s.pixWrite k vs).idxmem = s.idxmem := rfl
@[simp] theorem State.pixWrite_ksmem (s : State) (k : Nat) (vs : List Byte) : (s.pixWrite k vs).ksmem = s.ksmem := rfl
@[simp] theorem State.pixWrite_violation (s : State) (k : Nat) (vs : List Byte) : (s.pixWrite k vs).violation = s.violation := rfl
@[simp] theorem State.pixWrite_lastRead (s : State) (k : Nat) (vs : List Byte) : (s.pixWrite k vs).lastRead = s.lastRead := rfl
@[simp] theorem State.pixWrite_draws (s : State) (k : Nat) (vs : List Byte) : (s.pixWrite k vs).draws = s.draws := rfl
@[simp] theorem State.pixWrite_inputs (s : State) (k : Nat) (vs : List Byte) : (s.pixWrite k vs).inputs = s.inputs := rfl

/-! ### State.idxWrite -/

@[simp] theorem State.idxWrite_params (s : State) (g : Nat) (vs : List Word) : (s.idxWrite g vs).params = s.params := rfl
@[simp] theorem State.idxWrite_cmd (s : State) (g : Nat) (vs : List Word) : (s.idxWrite g vs).cmd = s.cmd := rfl
@[simp] theorem State.idxWrite_engine (s : State) (g : Nat) (vs : List Word) : (s.idxWrite g vs).engine = s.engine := rfl
@[simp] theorem State.idxWrite_err (s : State) (g : Nat) (vs : List Word) : (s.idxWrite g vs).err = s.err := rfl
@[simp] theorem State.idxWrite_overrun (s : State) (g : Nat) (vs : List Word) : (s.idxWrite g vs).overrun = s.overrun := rfl
@[simp] theorem State.idxWrite_buserr (s : State) (g : Nat) (vs : List Word) : (s.idxWrite g vs).buserr = s.buserr := rfl
@[simp] theorem State.idxWrite_height (s : State) (g : Nat) (vs : List Word) : (s.idxWrite g vs).height = s.height := rfl
@[simp] theorem State.idxWrite_width (s : State) (g : Nat) (vs : List Word) : (s.idxWrite g vs).width = s.width := rfl
@[simp] theorem State.idxWrite_ksLen (s : State) (g : Nat) (vs : List Word) : (s.idxWrite g vs).ksLen = s.ksLen := rfl
@[simp] theorem State.idxWrite_idxLen (s : State) (g : Nat) (vs : List Word) : (s.idxWrite g vs).idxLen = s.idxLen := rfl
@[simp] theorem State.idxWrite_bitOut (s : State) (g : Nat) (vs : List Word) : (s.idxWrite g vs).bitOut = s.bitOut := rfl
@[simp] theorem State.idxWrite_unit0 (s : State) (g : Nat) (vs : List Word) : (s.idxWrite g vs).unit0 = s.unit0 := rfl
@[simp] theorem State.idxWrite_unit1 (s : State) (g : Nat) (vs : List Word) : (s.idxWrite g vs).unit1 = s.unit1 := rfl
@[simp] theorem State.idxWrite_keySeed (s : State) (g : Nat) (vs : List Word) : (s.idxWrite g vs).keySeed = s.keySeed := rfl
@[simp] theorem State.idxWrite_keyTaps (s : State) (g : Nat) (vs : List Word) : (s.idxWrite g vs).keyTaps = s.keyTaps := rfl
@[simp] theorem State.idxWrite_pixmem (s : State) (g : Nat) (vs : List Word) : (s.idxWrite g vs).pixmem = s.pixmem := rfl
@[simp] theorem State.idxWrite_idxmem (s : State) (g : Nat) (vs : List Word) : (s.idxWrite g vs).idxmem = Memory.writeFrom s.idxmem g vs := rfl
@[simp] theorem State.idxWrite_ksmem (s : State) (g : Nat) (vs : List Word) : (s.idxWrite g vs).ksmem = s.ksmem := rfl
@[simp] theorem State.idxWrite_violation (s : State) (g : Nat) (vs : List Word) : (s.idxWrite g vs).violation = s.violation := rfl
@[simp] theorem State.idxWrite_lastRead (s : State) (g : Nat) (vs : List Word) : (s.idxWrite g vs).lastRead = s.lastRead := rfl
@[simp] theorem State.idxWrite_draws (s : State) (g : Nat) (vs : List Word) : (s.idxWrite g vs).draws = s.draws := rfl
@[simp] theorem State.idxWrite_inputs (s : State) (g : Nat) (vs : List Word) : (s.idxWrite g vs).inputs = s.inputs := rfl

/-! ### State.ksWrite -/

@[simp] theorem State.ksWrite_params (s : State) (k : Nat) (vs : List Byte) : (s.ksWrite k vs).params = s.params := rfl
@[simp] theorem State.ksWrite_cmd (s : State) (k : Nat) (vs : List Byte) : (s.ksWrite k vs).cmd = s.cmd := rfl
@[simp] theorem State.ksWrite_engine (s : State) (k : Nat) (vs : List Byte) : (s.ksWrite k vs).engine = s.engine := rfl
@[simp] theorem State.ksWrite_err (s : State) (k : Nat) (vs : List Byte) : (s.ksWrite k vs).err = s.err := rfl
@[simp] theorem State.ksWrite_overrun (s : State) (k : Nat) (vs : List Byte) : (s.ksWrite k vs).overrun = s.overrun := rfl
@[simp] theorem State.ksWrite_buserr (s : State) (k : Nat) (vs : List Byte) : (s.ksWrite k vs).buserr = s.buserr := rfl
@[simp] theorem State.ksWrite_height (s : State) (k : Nat) (vs : List Byte) : (s.ksWrite k vs).height = s.height := rfl
@[simp] theorem State.ksWrite_width (s : State) (k : Nat) (vs : List Byte) : (s.ksWrite k vs).width = s.width := rfl
@[simp] theorem State.ksWrite_ksLen (s : State) (k : Nat) (vs : List Byte) : (s.ksWrite k vs).ksLen = s.ksLen := rfl
@[simp] theorem State.ksWrite_idxLen (s : State) (k : Nat) (vs : List Byte) : (s.ksWrite k vs).idxLen = s.idxLen := rfl
@[simp] theorem State.ksWrite_bitOut (s : State) (k : Nat) (vs : List Byte) : (s.ksWrite k vs).bitOut = s.bitOut := rfl
@[simp] theorem State.ksWrite_unit0 (s : State) (k : Nat) (vs : List Byte) : (s.ksWrite k vs).unit0 = s.unit0 := rfl
@[simp] theorem State.ksWrite_unit1 (s : State) (k : Nat) (vs : List Byte) : (s.ksWrite k vs).unit1 = s.unit1 := rfl
@[simp] theorem State.ksWrite_keySeed (s : State) (k : Nat) (vs : List Byte) : (s.ksWrite k vs).keySeed = s.keySeed := rfl
@[simp] theorem State.ksWrite_keyTaps (s : State) (k : Nat) (vs : List Byte) : (s.ksWrite k vs).keyTaps = s.keyTaps := rfl
@[simp] theorem State.ksWrite_pixmem (s : State) (k : Nat) (vs : List Byte) : (s.ksWrite k vs).pixmem = s.pixmem := rfl
@[simp] theorem State.ksWrite_idxmem (s : State) (k : Nat) (vs : List Byte) : (s.ksWrite k vs).idxmem = s.idxmem := rfl
@[simp] theorem State.ksWrite_ksmem (s : State) (k : Nat) (vs : List Byte) : (s.ksWrite k vs).ksmem = Memory.writeFrom s.ksmem k vs := rfl
@[simp] theorem State.ksWrite_violation (s : State) (k : Nat) (vs : List Byte) : (s.ksWrite k vs).violation = s.violation := rfl
@[simp] theorem State.ksWrite_lastRead (s : State) (k : Nat) (vs : List Byte) : (s.ksWrite k vs).lastRead = s.lastRead := rfl
@[simp] theorem State.ksWrite_draws (s : State) (k : Nat) (vs : List Byte) : (s.ksWrite k vs).draws = s.draws := rfl
@[simp] theorem State.ksWrite_inputs (s : State) (k : Nat) (vs : List Byte) : (s.ksWrite k vs).inputs = s.inputs := rfl

/-! ### State.setUnit -/

@[simp] theorem State.setUnit_params (s : State) (u : LfsrUnit) (r : LfsrRegs) : (s.setUnit u r).params = s.params := by
  cases u <;> rfl
@[simp] theorem State.setUnit_cmd (s : State) (u : LfsrUnit) (r : LfsrRegs) : (s.setUnit u r).cmd = s.cmd := by
  cases u <;> rfl
@[simp] theorem State.setUnit_engine (s : State) (u : LfsrUnit) (r : LfsrRegs) : (s.setUnit u r).engine = s.engine := by
  cases u <;> rfl
@[simp] theorem State.setUnit_err (s : State) (u : LfsrUnit) (r : LfsrRegs) : (s.setUnit u r).err = s.err := by
  cases u <;> rfl
@[simp] theorem State.setUnit_overrun (s : State) (u : LfsrUnit) (r : LfsrRegs) : (s.setUnit u r).overrun = s.overrun := by
  cases u <;> rfl
@[simp] theorem State.setUnit_buserr (s : State) (u : LfsrUnit) (r : LfsrRegs) : (s.setUnit u r).buserr = s.buserr := by
  cases u <;> rfl
@[simp] theorem State.setUnit_height (s : State) (u : LfsrUnit) (r : LfsrRegs) : (s.setUnit u r).height = s.height := by
  cases u <;> rfl
@[simp] theorem State.setUnit_width (s : State) (u : LfsrUnit) (r : LfsrRegs) : (s.setUnit u r).width = s.width := by
  cases u <;> rfl
@[simp] theorem State.setUnit_ksLen (s : State) (u : LfsrUnit) (r : LfsrRegs) : (s.setUnit u r).ksLen = s.ksLen := by
  cases u <;> rfl
@[simp] theorem State.setUnit_idxLen (s : State) (u : LfsrUnit) (r : LfsrRegs) : (s.setUnit u r).idxLen = s.idxLen := by
  cases u <;> rfl
@[simp] theorem State.setUnit_bitOut (s : State) (u : LfsrUnit) (r : LfsrRegs) : (s.setUnit u r).bitOut = s.bitOut := by
  cases u <;> rfl
@[simp] theorem State.setUnit_keySeed (s : State) (u : LfsrUnit) (r : LfsrRegs) : (s.setUnit u r).keySeed = s.keySeed := by
  cases u <;> rfl
@[simp] theorem State.setUnit_keyTaps (s : State) (u : LfsrUnit) (r : LfsrRegs) : (s.setUnit u r).keyTaps = s.keyTaps := by
  cases u <;> rfl
@[simp] theorem State.setUnit_pixmem (s : State) (u : LfsrUnit) (r : LfsrRegs) : (s.setUnit u r).pixmem = s.pixmem := by
  cases u <;> rfl
@[simp] theorem State.setUnit_idxmem (s : State) (u : LfsrUnit) (r : LfsrRegs) : (s.setUnit u r).idxmem = s.idxmem := by
  cases u <;> rfl
@[simp] theorem State.setUnit_ksmem (s : State) (u : LfsrUnit) (r : LfsrRegs) : (s.setUnit u r).ksmem = s.ksmem := by
  cases u <;> rfl
@[simp] theorem State.setUnit_violation (s : State) (u : LfsrUnit) (r : LfsrRegs) : (s.setUnit u r).violation = s.violation := by
  cases u <;> rfl
@[simp] theorem State.setUnit_lastRead (s : State) (u : LfsrUnit) (r : LfsrRegs) : (s.setUnit u r).lastRead = s.lastRead := by
  cases u <;> rfl
@[simp] theorem State.setUnit_draws (s : State) (u : LfsrUnit) (r : LfsrRegs) : (s.setUnit u r).draws = s.draws := by
  cases u <;> rfl
@[simp] theorem State.setUnit_inputs (s : State) (u : LfsrUnit) (r : LfsrRegs) : (s.setUnit u r).inputs = s.inputs := by
  cases u <;> rfl

@[simp] theorem State.unit_setUnit (s : State) (u : LfsrUnit) (r : LfsrRegs) : (s.setUnit u r).unit u = r := by
  cases u <;> rfl

theorem State.unit_setUnit_of_ne (s : State) {u v : LfsrUnit} (r : LfsrRegs) (h : u ≠ v) :
    (s.setUnit u r).unit v = s.unit v := by
  cases u <;> cases v <;> first | rfl | exact absurd rfl h

theorem State.setUnit_comm (s : State) {u v : LfsrUnit} (a b : LfsrRegs) (h : u ≠ v) :
    (s.setUnit u a).setUnit v b = (s.setUnit v b).setUnit u a := by
  cases u <;> cases v <;> first | rfl | exact absurd rfl h

/-! ### The views of a state depend only on their own fields -/

@[simp] theorem State.unit_finish (s : State) (e : ErrCode) (u : LfsrUnit) :
    (s.finish e).unit u = s.unit u := rfl
@[simp] theorem State.unit_accept (s : State) (w : Word) (u : LfsrUnit) :
    (s.accept w).unit u = s.unit u := rfl
@[simp] theorem State.unit_clearSticky (s : State) (v : Word) (u : LfsrUnit) :
    (s.clearSticky v).unit u = s.unit u := rfl
@[simp] theorem State.unit_noteOverrun (s : State) (u : LfsrUnit) :
    (s.noteOverrun).unit u = s.unit u := rfl
@[simp] theorem State.unit_noteBusError (s : State) (u : LfsrUnit) :
    (s.noteBusError).unit u = s.unit u := rfl
@[simp] theorem State.unit_setIdxLen (s : State) (v : Word) (u : LfsrUnit) :
    (s.setIdxLen v).unit u = s.unit u := rfl
@[simp] theorem State.unit_setBitOut (s : State) (f : Bool) (u : LfsrUnit) :
    (s.setBitOut f).unit u = s.unit u := rfl
@[simp] theorem State.unit_pixWrite (s : State) (k : Nat) (vs : List Byte) (u : LfsrUnit) :
    (s.pixWrite k vs).unit u = s.unit u := rfl
@[simp] theorem State.unit_idxWrite (s : State) (g : Nat) (vs : List Word) (u : LfsrUnit) :
    (s.idxWrite g vs).unit u = s.unit u := rfl
@[simp] theorem State.unit_ksWrite (s : State) (k : Nat) (vs : List Byte) (u : LfsrUnit) :
    (s.ksWrite k vs).unit u = s.unit u := rfl

@[simp] theorem State.pixRead_finish (s : State) (e : ErrCode) (j : Nat) :
    (s.finish e).pixRead j = s.pixRead j := rfl
@[simp] theorem State.pixRead_accept (s : State) (w : Word) (j : Nat) :
    (s.accept w).pixRead j = s.pixRead j := rfl
@[simp] theorem State.pixRead_clearSticky (s : State) (v : Word) (j : Nat) :
    (s.clearSticky v).pixRead j = s.pixRead j := rfl
@[simp] theorem State.pixRead_noteOverrun (s : State) (j : Nat) :
    (s.noteOverrun).pixRead j = s.pixRead j := rfl
@[simp] theorem State.pixRead_noteBusError (s : State) (j : Nat) :
    (s.noteBusError).pixRead j = s.pixRead j := rfl
@[simp] theorem State.pixRead_setIdxLen (s : State) (v : Word) (j : Nat) :
    (s.setIdxLen v).pixRead j = s.pixRead j := rfl
@[simp] theorem State.pixRead_setBitOut (s : State) (f : Bool) (j : Nat) :
    (s.setBitOut f).pixRead j = s.pixRead j := rfl
@[simp] theorem State.pixRead_idxWrite (s : State) (g : Nat) (vs : List Word) (j : Nat) :
    (s.idxWrite g vs).pixRead j = s.pixRead j := rfl
@[simp] theorem State.pixRead_ksWrite (s : State) (k : Nat) (vs : List Byte) (j : Nat) :
    (s.ksWrite k vs).pixRead j = s.pixRead j := rfl
@[simp] theorem State.pixRead_setUnit (s : State) (u : LfsrUnit) (r : LfsrRegs) (j : Nat) :
    ((s.setUnit u r).pixRead j) = s.pixRead j := by
  cases u <;> rfl

@[simp] theorem State.idxRead_finish (s : State) (e : ErrCode) (j : Nat) :
    (s.finish e).idxRead j = s.idxRead j := rfl
@[simp] theorem State.idxRead_accept (s : State) (w : Word) (j : Nat) :
    (s.accept w).idxRead j = s.idxRead j := rfl
@[simp] theorem State.idxRead_clearSticky (s : State) (v : Word) (j : Nat) :
    (s.clearSticky v).idxRead j = s.idxRead j := rfl
@[simp] theorem State.idxRead_noteOverrun (s : State) (j : Nat) :
    (s.noteOverrun).idxRead j = s.idxRead j := rfl
@[simp] theorem State.idxRead_noteBusError (s : State) (j : Nat) :
    (s.noteBusError).idxRead j = s.idxRead j := rfl
@[simp] theorem State.idxRead_setIdxLen (s : State) (v : Word) (j : Nat) :
    (s.setIdxLen v).idxRead j = s.idxRead j := rfl
@[simp] theorem State.idxRead_setBitOut (s : State) (f : Bool) (j : Nat) :
    (s.setBitOut f).idxRead j = s.idxRead j := rfl
@[simp] theorem State.idxRead_pixWrite (s : State) (k : Nat) (vs : List Byte) (j : Nat) :
    (s.pixWrite k vs).idxRead j = s.idxRead j := rfl
@[simp] theorem State.idxRead_ksWrite (s : State) (k : Nat) (vs : List Byte) (j : Nat) :
    (s.ksWrite k vs).idxRead j = s.idxRead j := rfl
@[simp] theorem State.idxRead_setUnit (s : State) (u : LfsrUnit) (r : LfsrRegs) (j : Nat) :
    ((s.setUnit u r).idxRead j) = s.idxRead j := by
  cases u <;> rfl

@[simp] theorem State.ksRead_finish (s : State) (e : ErrCode) (j : Nat) :
    (s.finish e).ksRead j = s.ksRead j := rfl
@[simp] theorem State.ksRead_accept (s : State) (w : Word) (j : Nat) :
    (s.accept w).ksRead j = s.ksRead j := rfl
@[simp] theorem State.ksRead_clearSticky (s : State) (v : Word) (j : Nat) :
    (s.clearSticky v).ksRead j = s.ksRead j := rfl
@[simp] theorem State.ksRead_noteOverrun (s : State) (j : Nat) :
    (s.noteOverrun).ksRead j = s.ksRead j := rfl
@[simp] theorem State.ksRead_noteBusError (s : State) (j : Nat) :
    (s.noteBusError).ksRead j = s.ksRead j := rfl
@[simp] theorem State.ksRead_setIdxLen (s : State) (v : Word) (j : Nat) :
    (s.setIdxLen v).ksRead j = s.ksRead j := rfl
@[simp] theorem State.ksRead_setBitOut (s : State) (f : Bool) (j : Nat) :
    (s.setBitOut f).ksRead j = s.ksRead j := rfl
@[simp] theorem State.ksRead_pixWrite (s : State) (k : Nat) (vs : List Byte) (j : Nat) :
    (s.pixWrite k vs).ksRead j = s.ksRead j := rfl
@[simp] theorem State.ksRead_idxWrite (s : State) (g : Nat) (vs : List Word) (j : Nat) :
    (s.idxWrite g vs).ksRead j = s.ksRead j := rfl
@[simp] theorem State.ksRead_setUnit (s : State) (u : LfsrUnit) (r : LfsrRegs) (j : Nat) :
    ((s.setUnit u r).ksRead j) = s.ksRead j := by
  cases u <;> rfl

@[simp] theorem State.groups_finish (s : State) (e : ErrCode) :
    (s.finish e).groups = s.groups := rfl
@[simp] theorem State.groups_accept (s : State) (w : Word) :
    (s.accept w).groups = s.groups := rfl
@[simp] theorem State.groups_clearSticky (s : State) (v : Word) :
    (s.clearSticky v).groups = s.groups := rfl
@[simp] theorem State.groups_noteOverrun (s : State) :
    (s.noteOverrun).groups = s.groups := rfl
@[simp] theorem State.groups_noteBusError (s : State) :
    (s.noteBusError).groups = s.groups := rfl
@[simp] theorem State.groups_setIdxLen (s : State) (v : Word) :
    (s.setIdxLen v).groups = s.groups := rfl
@[simp] theorem State.groups_setBitOut (s : State) (f : Bool) :
    (s.setBitOut f).groups = s.groups := rfl
@[simp] theorem State.groups_pixWrite (s : State) (k : Nat) (vs : List Byte) :
    (s.pixWrite k vs).groups = s.groups := rfl
@[simp] theorem State.groups_idxWrite (s : State) (g : Nat) (vs : List Word) :
    (s.idxWrite g vs).groups = s.groups := rfl
@[simp] theorem State.groups_ksWrite (s : State) (k : Nat) (vs : List Byte) :
    (s.ksWrite k vs).groups = s.groups := rfl
@[simp] theorem State.groups_setUnit (s : State) (u : LfsrUnit) (r : LfsrRegs) :
    ((s.setUnit u r).groups) = s.groups := by
  cases u <;> rfl

@[simp] theorem State.isBusy_clearSticky (s : State) (v : Word) :
    (s.clearSticky v).isBusy = s.isBusy := rfl
@[simp] theorem State.isBusy_noteOverrun (s : State) :
    (s.noteOverrun).isBusy = s.isBusy := rfl
@[simp] theorem State.isBusy_noteBusError (s : State) :
    (s.noteBusError).isBusy = s.isBusy := rfl
@[simp] theorem State.isBusy_setIdxLen (s : State) (v : Word) :
    (s.setIdxLen v).isBusy = s.isBusy := rfl
@[simp] theorem State.isBusy_setBitOut (s : State) (f : Bool) :
    (s.setBitOut f).isBusy = s.isBusy := rfl
@[simp] theorem State.isBusy_pixWrite (s : State) (k : Nat) (vs : List Byte) :
    (s.pixWrite k vs).isBusy = s.isBusy := rfl
@[simp] theorem State.isBusy_idxWrite (s : State) (g : Nat) (vs : List Word) :
    (s.idxWrite g vs).isBusy = s.isBusy := rfl
@[simp] theorem State.isBusy_ksWrite (s : State) (k : Nat) (vs : List Byte) :
    (s.ksWrite k vs).isBusy = s.isBusy := rfl
@[simp] theorem State.isBusy_setUnit (s : State) (u : LfsrUnit) (r : LfsrRegs) :
    ((s.setUnit u r).isBusy) = s.isBusy := by
  cases u <;> rfl

@[simp] theorem State.isBusy_finish (s : State) (e : ErrCode) : (s.finish e).isBusy = false := rfl
@[simp] theorem State.isBusy_accept (s : State) (w : Word) : (s.accept w).isBusy = true := rfl

/-- BUSY is the engine's phase (10_state R57). -/
theorem State.isBusy_iff (s : State) : s.isBusy = true ↔ ∃ w, s.engine = .busy w := by
  unfold State.isBusy
  cases s.engine <;> simp

theorem State.isBusy_eq_false_iff (s : State) : s.isBusy = false ↔ s.engine = .idle := by
  unfold State.isBusy
  cases s.engine <;> simp

/-! ### What the reads see of an update elsewhere -/

@[simp] theorem State.finish_pixRead (s : State) (e : ErrCode) (j : Nat) :
    (s.finish e).pixRead j = s.pixRead j := rfl

@[simp] theorem State.finish_idxRead (s : State) (e : ErrCode) (j : Nat) :
    (s.finish e).idxRead j = s.idxRead j := rfl

@[simp] theorem State.finish_ksRead (s : State) (e : ErrCode) (j : Nat) :
    (s.finish e).ksRead j = s.ksRead j := rfl

@[simp] theorem State.finish_groups (s : State) (e : ErrCode) : (s.finish e).groups = s.groups := rfl

@[simp] theorem State.finish_unit (s : State) (e : ErrCode) (u : LfsrUnit) : (s.finish e).unit u = s.unit u := by
  cases u <;> rfl

@[simp] theorem State.accept_pixRead (s : State) (w : Word) (j : Nat) :
    (s.accept w).pixRead j = s.pixRead j := rfl

@[simp] theorem State.accept_idxRead (s : State) (w : Word) (j : Nat) :
    (s.accept w).idxRead j = s.idxRead j := rfl

@[simp] theorem State.accept_ksRead (s : State) (w : Word) (j : Nat) :
    (s.accept w).ksRead j = s.ksRead j := rfl

@[simp] theorem State.accept_groups (s : State) (w : Word) : (s.accept w).groups = s.groups := rfl

@[simp] theorem State.accept_unit (s : State) (w : Word) (u : LfsrUnit) : (s.accept w).unit u = s.unit u := by
  cases u <;> rfl

@[simp] theorem State.setIdxLen_pixRead (s : State) (v : Word) (j : Nat) :
    (s.setIdxLen v).pixRead j = s.pixRead j := rfl

@[simp] theorem State.setIdxLen_idxRead (s : State) (v : Word) (j : Nat) :
    (s.setIdxLen v).idxRead j = s.idxRead j := rfl

@[simp] theorem State.setIdxLen_ksRead (s : State) (v : Word) (j : Nat) :
    (s.setIdxLen v).ksRead j = s.ksRead j := rfl

@[simp] theorem State.setIdxLen_groups (s : State) (v : Word) : (s.setIdxLen v).groups = s.groups := rfl

@[simp] theorem State.setIdxLen_unit (s : State) (v : Word) (u : LfsrUnit) : (s.setIdxLen v).unit u = s.unit u := by
  cases u <;> rfl

@[simp] theorem State.setBitOut_pixRead (s : State) (f : Bool) (j : Nat) :
    (s.setBitOut f).pixRead j = s.pixRead j := rfl

@[simp] theorem State.setBitOut_idxRead (s : State) (f : Bool) (j : Nat) :
    (s.setBitOut f).idxRead j = s.idxRead j := rfl

@[simp] theorem State.setBitOut_ksRead (s : State) (f : Bool) (j : Nat) :
    (s.setBitOut f).ksRead j = s.ksRead j := rfl

@[simp] theorem State.setBitOut_groups (s : State) (f : Bool) : (s.setBitOut f).groups = s.groups := rfl

@[simp] theorem State.setBitOut_unit (s : State) (f : Bool) (u : LfsrUnit) : (s.setBitOut f).unit u = s.unit u := by
  cases u <;> rfl

@[simp] theorem State.setUnit_pixRead (s : State) (u : LfsrUnit) (r : LfsrRegs) (j : Nat) :
    (s.setUnit u r).pixRead j = s.pixRead j := by
  cases u <;> rfl

@[simp] theorem State.setUnit_idxRead (s : State) (u : LfsrUnit) (r : LfsrRegs) (j : Nat) :
    (s.setUnit u r).idxRead j = s.idxRead j := by
  cases u <;> rfl

@[simp] theorem State.setUnit_ksRead (s : State) (u : LfsrUnit) (r : LfsrRegs) (j : Nat) :
    (s.setUnit u r).ksRead j = s.ksRead j := by
  cases u <;> rfl

@[simp] theorem State.setUnit_groups (s : State) (u : LfsrUnit) (r : LfsrRegs) : (s.setUnit u r).groups = s.groups := by
  cases u <;> rfl

@[simp] theorem State.pixWrite_idxRead (s : State) (k : Nat) (vs : List Byte) (j : Nat) :
    (s.pixWrite k vs).idxRead j = s.idxRead j := rfl

@[simp] theorem State.pixWrite_ksRead (s : State) (k : Nat) (vs : List Byte) (j : Nat) :
    (s.pixWrite k vs).ksRead j = s.ksRead j := rfl

@[simp] theorem State.pixWrite_groups (s : State) (k : Nat) (vs : List Byte) : (s.pixWrite k vs).groups = s.groups := rfl

@[simp] theorem State.pixWrite_unit (s : State) (k : Nat) (vs : List Byte) (u : LfsrUnit) : (s.pixWrite k vs).unit u = s.unit u := by
  cases u <;> rfl

@[simp] theorem State.idxWrite_pixRead (s : State) (g : Nat) (vs : List Word) (j : Nat) :
    (s.idxWrite g vs).pixRead j = s.pixRead j := rfl

@[simp] theorem State.idxWrite_ksRead (s : State) (g : Nat) (vs : List Word) (j : Nat) :
    (s.idxWrite g vs).ksRead j = s.ksRead j := rfl

@[simp] theorem State.idxWrite_groups (s : State) (g : Nat) (vs : List Word) : (s.idxWrite g vs).groups = s.groups := rfl

@[simp] theorem State.idxWrite_unit (s : State) (g : Nat) (vs : List Word) (u : LfsrUnit) : (s.idxWrite g vs).unit u = s.unit u := by
  cases u <;> rfl

@[simp] theorem State.ksWrite_pixRead (s : State) (k : Nat) (vs : List Byte) (j : Nat) :
    (s.ksWrite k vs).pixRead j = s.pixRead j := rfl

@[simp] theorem State.ksWrite_idxRead (s : State) (k : Nat) (vs : List Byte) (j : Nat) :
    (s.ksWrite k vs).idxRead j = s.idxRead j := rfl

@[simp] theorem State.ksWrite_groups (s : State) (k : Nat) (vs : List Byte) : (s.ksWrite k vs).groups = s.groups := rfl

@[simp] theorem State.ksWrite_unit (s : State) (k : Nat) (vs : List Byte) (u : LfsrUnit) : (s.ksWrite k vs).unit u = s.unit u := by
  cases u <;> rfl

@[simp] theorem State.setUnit_unit_self (s : State) (u : LfsrUnit) (r : LfsrRegs) : (s.setUnit u r).unit u = r := by
  cases u <;> rfl

theorem State.setUnit_unit_of_ne (s : State) {u v : LfsrUnit} (r : LfsrRegs) (h : u ≠ v) :
    (s.setUnit u r).unit v = s.unit v := by
  cases u <;> cases v <;> first | rfl | exact absurd rfl h

end Sys2Proof.Machine
end

