-- ==== Sys2Proof/Laws/Memory.lean ====
section
/-! SUPPORT. The laws of a memory: a read after a write, every other location unchanged, the canonical form and the capacity
kept; and the same for the three memories of the state. -/

namespace Sys2Proof.Machine

variable {w : Nat}

/-- A read after a write: the value written there, and what was there before anywhere else. -/
theorem Memory.find?_write (m : Memory w) (a b : Nat) (v : BitVec w) :
    Memory.find? (Memory.write m a v) b = if b = a then some v else Memory.find? m b := by
  induction m with
  | nil => simp [Memory.write, Memory.find?]
  | cons x m ih =>
    obtain ⟨c, u⟩ := x
    by_cases h1 : a < c
    · simp [Memory.write, h1, Memory.find?]
    · by_cases h2 : a = c
      · subst h2
        by_cases h3 : b = a <;> simp [Memory.write, Memory.find?, h3]
      · simp only [Memory.write, h1, h2, if_false, Memory.find?, ih]
        by_cases h3 : b = c
        · subst h3
          simp [Ne.symm h2]
        · simp [h3]

/-- A read after a write of consecutive locations. -/
theorem Memory.find?_writeFrom (vs : List (BitVec w)) (m : Memory w) (a b : Nat) :
    Memory.find? (Memory.writeFrom m a vs) b =
      if a ≤ b ∧ b < a + vs.length then vs[b - a]? else Memory.find? m b := by
  induction vs generalizing m a with
  | nil =>
    have : ¬ (a ≤ b ∧ b < a + 0) := by omega
    simp only [Memory.writeFrom, List.length_nil, if_neg this]
  | cons v vs ih =>
    rw [Memory.writeFrom, ih, Memory.find?_write, List.length_cons]
    by_cases h0 : b = a
    · subst h0
      simp
    · by_cases h1 : a + 1 ≤ b ∧ b < a + 1 + vs.length
      · have h2 : a ≤ b ∧ b < a + (vs.length + 1) := by omega
        rw [if_pos h1, if_pos h2, show b - a = (b - (a + 1)) + 1 by omega, List.getElem?_cons_succ]
      · have h2 : ¬ (a ≤ b ∧ b < a + (vs.length + 1)) := by omega
        rw [if_neg h1, if_neg h2, if_neg h0]

/-- Every address a write lists is the one written or was listed before. -/
theorem Memory.mem_write {m : Memory w} {a : Nat} {v : BitVec w} {x : Nat × BitVec w}
    (h : x ∈ Memory.write m a v) : x.1 = a ∨ x ∈ m := by
  induction m with
  | nil => simp [Memory.write] at h; simp [h]
  | cons y m ih =>
    obtain ⟨c, u⟩ := y
    rw [Memory.write] at h
    split at h
    · rcases List.mem_cons.1 h with rfl | h
      · exact .inl rfl
      · exact .inr h
    · split at h
      · rcases List.mem_cons.1 h with rfl | h
        · exact .inl rfl
        · exact .inr (List.mem_cons_of_mem _ h)
      · rcases List.mem_cons.1 h with rfl | h
        · exact .inr (List.mem_cons_self ..)
        · rcases ih h with h | h
          · exact .inl h
          · exact .inr (List.mem_cons_of_mem _ h)

/-- A write keeps the canonical form. -/
theorem Memory.wf_write {m : Memory w} (a : Nat) (v : BitVec w) (h : Memory.wf m) :
    Memory.wf (Memory.write m a v) := by
  induction m with
  | nil => simp [Memory.write, Memory.wf]
  | cons y m ih =>
    obtain ⟨c, u⟩ := y
    have hc := List.pairwise_cons.1 h
    rw [Memory.write]
    split
    · rename_i h1
      refine List.pairwise_cons.2 ⟨fun x hx => ?_, h⟩
      rcases List.mem_cons.1 hx with rfl | hx
      · exact h1
      · exact h1.trans (hc.1 x hx)
    · split
      · rename_i _ h2
        subst h2
        exact List.pairwise_cons.2 ⟨hc.1, hc.2⟩
      · rename_i h1 h2
        refine List.pairwise_cons.2 ⟨fun x hx => ?_, ih hc.2⟩
        rcases Memory.mem_write hx with hx | hx
        · show c < x.1
          omega
        · exact hc.1 x hx

/-- A write below a capacity stays below it. -/
theorem Memory.below_write {m : Memory w} {a n : Nat} (v : BitVec w) (h : Memory.below m n) (ha : a < n) :
    Memory.below (Memory.write m a v) n := by
  intro x hx
  rcases Memory.mem_write hx with hx | hx
  · omega
  · exact h x hx

/-- A write of consecutive locations keeps the canonical form. -/
theorem Memory.wf_writeFrom (vs : List (BitVec w)) (m : Memory w) (a : Nat) (h : Memory.wf m) :
    Memory.wf (Memory.writeFrom m a vs) := by
  induction vs generalizing m a with
  | nil => exact h
  | cons v vs ih => exact ih _ _ (Memory.wf_write a v h)

/-- A write of consecutive locations below a capacity stays below it. -/
theorem Memory.below_writeFrom (vs : List (BitVec w)) (m : Memory w) (a n : Nat) (h : Memory.below m n)
    (ha : a + vs.length ≤ n) : Memory.below (Memory.writeFrom m a vs) n := by
  induction vs generalizing m a with
  | nil => exact h
  | cons v vs ih =>
    rw [List.length_cons] at ha
    exact ih _ _ (Memory.below_write v h (by omega)) (by omega)

/-! ### The three memories -/

/-- PixRead after PixWrite of consecutive bytes. -/
theorem State.pixRead_pixWrite (s : State) (a : Nat) (vs : List Byte) (k : Nat) :
    (s.pixWrite a vs).pixRead k = if a ≤ k ∧ k < a + vs.length then vs.getD (k - a) 0 else s.pixRead k := by
  unfold State.pixRead
  rw [State.pixWrite_pixmem, Memory.find?_writeFrom]
  split
  · rename_i h
    have hl : k - a < vs.length := by omega
    simp [hl]
  · rfl

/-- IdxRead after IdxWrite of consecutive entries. -/
theorem State.idxRead_idxWrite (s : State) (a : Nat) (vs : List Word) (g : Nat) :
    (s.idxWrite a vs).idxRead g = if a ≤ g ∧ g < a + vs.length then vs.getD (g - a) 0 else s.idxRead g := by
  unfold State.idxRead
  rw [State.idxWrite_idxmem, Memory.find?_writeFrom]
  split
  · rename_i h
    have hl : g - a < vs.length := by omega
    simp [hl]
  · rfl

/-- KsRead after KsWrite of consecutive bytes. -/
theorem State.ksRead_ksWrite (s : State) (a : Nat) (vs : List Byte) (k : Nat) :
    (s.ksWrite a vs).ksRead k = if a ≤ k ∧ k < a + vs.length then vs.getD (k - a) 0 else s.ksRead k := by
  unfold State.ksRead
  rw [State.ksWrite_ksmem, Memory.find?_writeFrom]
  split
  · rename_i h
    have hl : k - a < vs.length := by omega
    simp [hl]
  · rfl

end Sys2Proof.Machine
end

