-- ==== Sys2Proof/Laws/Bus.lean ====
section
/-! SUPPORT. What the host bus can do: the address map as ranges, the bytes of a word, a read and a write target by
target. -/

namespace Sys2Proof.Machine

theorem maxGroups_le (p : Params) : 3 * p.maxGroups ≤ 0xC00000 ∧ 4 * p.maxGroups ≤ 0x1000000 ∧ 4 ≤ p.maxGroups := by
  have := p.groupQuads.isLt
  unfold Params.maxGroups
  omega

theorem ksMax_le (p : Params) : p.ksMax ≤ 0x1000000 ∧ 4 ≤ p.ksMax := by
  have := p.ksQuads.isLt
  unfold Params.ksMax
  omega

theorem maxGroups_mod (p : Params) : p.maxGroups % 4 = 0 := by
  unfold Params.maxGroups
  omega

theorem ksMax_mod (p : Params) : p.ksMax % 4 = 0 := by
  unfold Params.ksMax
  omega

/-! ### The address map -/

/-- An address in the register window is a register of the map or a reserved offset (10_state R34, R51). -/
theorem busTarget_window (p : Params) {a : Nat} (h4 : a % 4 = 0) (h : a < 0x100) :
    busTarget p a = (regMap.lookup a).elim .reserved .reg := by
  simp only [busTarget, h4, h, ne_eq, not_true_eq_false, if_false, if_true]

/-- Every row of the register map is aligned, in the register window, and found by its offset. -/
theorem regMap_row : ∀ x ∈ regMap, x.1 % 4 = 0 ∧ x.1 < 0x100 ∧ regMap.lookup x.1 = some x.2 := by decide

/-- An offset of the register map reaches its register (10_state R34). -/
theorem busTarget_reg (p : Params) {off : Nat} {r : Reg} (h : (off, r) ∈ regMap) : busTarget p off = .reg r := by
  obtain ⟨h4, hlt, hl⟩ := regMap_row _ h
  simp only at h4 hlt hl
  rw [busTarget_window p h4 hlt, hl]
  rfl

/-- The PIXMEM window (20_memory R73, R74). -/
theorem busTarget_pix (p : Params) {a : Nat} (h : 4 * a < 3 * p.maxGroups) :
    busTarget p (0x1000000 + 4 * a) = .pix (4 * a) := by
  unfold busTarget
  split_ifs <;> first | omega | exact congrArg Target.pix (by omega)

/-- The IDXMEM window (20_memory R73, R75). -/
theorem busTarget_idx (p : Params) {g : Nat} (h : g < p.maxGroups) :
    busTarget p (0x2000000 + 4 * g) = .idx g := by
  have := maxGroups_le p
  unfold busTarget
  split_ifs <;> first | omega | exact congrArg Target.idx (by omega)

/-- The KSMEM window (20_memory R73, R76). -/
theorem busTarget_ks (p : Params) {a : Nat} (h : 4 * a < p.ksMax) :
    busTarget p (0x3000000 + 4 * a) = .ks (4 * a) := by
  have := maxGroups_le p
  unfold busTarget
  split_ifs <;> first | omega | exact congrArg Target.ks (by omega)

/-- What every target says of the address that reaches it. -/
theorem busTarget_cases (p : Params) (a : Nat) :
    (Unreachable p a ∧ busTarget p a = .busError) ∨
    (¬ Unreachable p a ∧
      ((∃ r, (a, r) ∈ regMap ∧ busTarget p a = .reg r) ∨
       (busTarget p a = .reserved ∧ a < 0x100 ∧ a % 4 = 0 ∧ ∀ r, (a, r) ∉ regMap) ∨
       (∃ k, 4 * k < 3 * p.maxGroups ∧ a = 0x1000000 + 4 * k ∧ busTarget p a = .pix (4 * k)) ∨
       (∃ g, g < p.maxGroups ∧ a = 0x2000000 + 4 * g ∧ busTarget p a = .idx g) ∨
       (∃ k, 4 * k < p.ksMax ∧ a = 0x3000000 + 4 * k ∧ busTarget p a = .ks (4 * k)))) := by
  have h1 := maxGroups_le p
  have h2 := ksMax_le p
  by_cases h4 : a % 4 = 0
  · by_cases hr : a < 0x100
    · refine .inr ⟨by unfold Unreachable; omega, ?_⟩
      rw [busTarget_window p h4 hr]
      cases hl : regMap.lookup a with
      | some r =>
        obtain ⟨l1, l2, he, -⟩ := List.lookup_eq_some_iff.1 hl
        exact .inl ⟨r, by rw [he]; simp, rfl⟩
      | none =>
        refine .inr (.inl ⟨rfl, hr, h4, fun r hm => ?_⟩)
        have := (regMap_row _ hm).2.2
        simp only [hl] at this
        cases this
    · by_cases hp : 0x1000000 ≤ a ∧ a < 0x1000000 + 3 * p.maxGroups
      · refine .inr ⟨by unfold Unreachable; omega, .inr (.inr (.inl ⟨(a - 0x1000000) / 4, by omega, by omega, ?_⟩))⟩
        have := busTarget_pix p (a := (a - 0x1000000) / 4) (by omega)
        rwa [show 0x1000000 + 4 * ((a - 0x1000000) / 4) = a by omega] at this
      · by_cases hi : 0x2000000 ≤ a ∧ a < 0x2000000 + 4 * p.maxGroups
        · refine .inr ⟨by unfold Unreachable; omega, .inr (.inr (.inr (.inl ⟨(a - 0x2000000) / 4, by omega, by omega, ?_⟩)))⟩
          have := busTarget_idx p (g := (a - 0x2000000) / 4) (by omega)
          rwa [show 0x2000000 + 4 * ((a - 0x2000000) / 4) = a by omega] at this
        · by_cases hk : 0x3000000 ≤ a ∧ a < 0x3000000 + p.ksMax
          · refine .inr ⟨by unfold Unreachable; omega,
              .inr (.inr (.inr (.inr ⟨(a - 0x3000000) / 4, by omega, by omega, ?_⟩)))⟩
            have := busTarget_ks p (a := (a - 0x3000000) / 4) (by omega)
            rwa [show 0x3000000 + 4 * ((a - 0x3000000) / 4) = a by omega] at this
          · refine .inl ⟨by unfold Unreachable; omega, ?_⟩
            unfold busTarget
            rw [if_neg (by omega), if_neg hr]
            split_ifs <;> first | rfl | omega
  · refine .inl ⟨.inl h4, ?_⟩
    unfold busTarget
    rw [if_pos h4]

/-- A register is reached only at its own offset. -/
theorem busTarget_eq_reg {p : Params} {a : Nat} {r : Reg} (h : busTarget p a = .reg r) : (a, r) ∈ regMap := by
  obtain ⟨_, hb⟩ | ⟨_, ⟨q, hq, hb⟩ | ⟨hb, -⟩ | ⟨k, _, _, hb⟩ | ⟨k, _, _, hb⟩ | ⟨k, _, _, hb⟩⟩ := busTarget_cases p a <;>
    rw [h] at hb <;> cases hb
  exact hq

/-- The addresses that reach nothing are those of 20_memory R79. -/
theorem unreachable_iff (p : Params) (a : Nat) : Unreachable p a ↔ busTarget p a = .busError := by
  obtain ⟨h, hb⟩ | ⟨h, ⟨q, hq, hb⟩ | ⟨hb, -⟩ | ⟨k, _, _, hb⟩ | ⟨k, _, _, hb⟩ | ⟨k, _, _, hb⟩⟩ := busTarget_cases p a <;>
    simp only [h, hb, false_iff]
  all_goals simp

/-! ### Words and bytes -/

/-- Byte c of a word made of four bytes (20_memory R74). -/
theorem wordOfBytes_byte (b : Nat → Byte) : ∀ c < 4,
    (wordOfBytes (b 0) (b 1) (b 2) (b 3)).extractLsb' (8 * c) 8 = b c := by
  intro c hc
  have hb : ∀ (b0 b1 b2 b3 : Byte) (i : Nat), i < 32 →
      (wordOfBytes b0 b1 b2 b3).getLsbD i =
        if i < 8 then b0.getLsbD i else if i < 16 then b1.getLsbD (i - 8)
        else if i < 24 then b2.getLsbD (i - 16) else b3.getLsbD (i - 24) := by
    intro b0 b1 b2 b3 i hi
    unfold wordOfBytes
    simp only [BitVec.getLsbD_or, BitVec.getLsbD_shiftLeft, BitVec.getLsbD_setWidth, hi, decide_true, Bool.true_and]
    have hz : ∀ (x : Byte) (j : Nat), 8 ≤ j → x.getLsbD j = false := fun x j hj => BitVec.getLsbD_of_ge x j hj
    split_ifs with h1 h2 h3
    · simp [show i < 8 by omega, show i < 16 by omega, show i < 24 by omega]
    · simp [h1, hz b0 i (by omega), show i < 16 by omega, show i < 24 by omega, show i - 8 < 32 by omega]
    · simp [h1, h2, hz b0 i (by omega), hz b1 (i - 8) (by omega), show i < 24 by omega, show i - 16 < 32 by omega]
    · simp [h1, h2, h3, hz b0 i (by omega), hz b1 (i - 8) (by omega), hz b2 (i - 16) (by omega),
        show i - 24 < 32 by omega]
  apply BitVec.eq_of_getLsbD_eq
  intro j hj
  rw [BitVec.getLsbD_extractLsb', hb _ _ _ _ _ (by omega)]
  rcases c with _ | _ | _ | _ | c
  · simp [hj]
  · simp [hj, show ¬ 8 + j < 8 by omega, show 8 + j < 16 by omega]
  · simp [hj, show ¬ 16 + j < 8 by omega, show ¬ 16 + j < 16 by omega, show 16 + j < 24 by omega]
  · simp [hj, show ¬ 24 + j < 8 by omega, show ¬ 24 + j < 16 by omega, show ¬ 24 + j < 24 by omega]
  · omega

/-- The four bytes a word is stored as (20_memory R74). -/
theorem bytesOfWord_getD (v : Word) : ∀ c < 4, (bytesOfWord v).getD c 0 = v.extractLsb' (8 * c) 8 := by
  intro c hc
  rcases c with _ | _ | _ | _ | c <;> first | rfl | omega

/-! ### Transactions -/

/-- A read that reaches something: only the read-data port, and while busy the count of draws, change (20_memory R82). -/
theorem hostRead_of_ne (a : BusAddr) (s : State) (h : busTarget s.params a.toNat ≠ .busError) :
    hostRead a s =
      { s with
        lastRead := s.readTarget (busTarget s.params a.toNat)
        draws := if s.isBusy then s.draws + 1 else s.draws } := by
  unfold hostRead
  simp only [h, if_false]

/-- A bus-error read (20_memory R79). -/
theorem hostRead_busError (a : BusAddr) (s : State) (h : busTarget s.params a.toNat = .busError) :
    hostRead a s =
      { s with
        lastRead := 0
        draws := if s.isBusy then s.draws + 1 else s.draws
        buserr := true
        violation := true } := by
  unfold hostRead
  simp only [h, if_true]
  rfl

/-- Every read leaves all but its own fields. -/
theorem hostRead_frame (a : BusAddr) (s : State) :
    hostRead a s =
      { s with
        lastRead := (hostRead a s).lastRead
        draws := (hostRead a s).draws
        buserr := (hostRead a s).buserr
        violation := (hostRead a s).violation } := by
  by_cases h : busTarget s.params a.toNat = .busError
  · rw [hostRead_busError a s h]
  · rw [hostRead_of_ne a s h]

/-- A write while idle goes to its target. -/
theorem hostWrite_idle (a : BusAddr) (v : Word) (s : State) (h : s.isBusy = false) :
    hostWrite a v s = s.writeTarget v (busTarget s.params a.toNat) := by
  simp [hostWrite, h]

/-- What a write while busy can do (70_reset R283). -/
theorem hostWrite_busy (a : BusAddr) (v : Word) (s : State) (h : s.isBusy = true) :
    hostWrite a v s =
      if busTarget s.params a.toNat = .busError then s.noteBusError
      else if busTarget s.params a.toNat = .reg .status then s.clearSticky v
      else s.noteOverrun := by
  unfold hostWrite
  by_cases h1 : busTarget s.params a.toNat = .busError
  · simp [h1, State.writeTarget]
  · by_cases h2 : busTarget s.params a.toNat = .reg .status
    · simp [h2, State.writeTarget, State.writeReg]
    · simp [h, h1, h2]

/-- While busy, a host transaction changes only the sticky bits, the violation mark and the model's own port fields
(10_state R62). -/
theorem hostTransaction_busy (t : HostTxn) (s : State) (h : s.isBusy = true) :
    hostTransaction t s =
      { s with
        overrun := (hostTransaction t s).overrun
        buserr := (hostTransaction t s).buserr
        violation := (hostTransaction t s).violation
        lastRead := (hostTransaction t s).lastRead
        draws := (hostTransaction t s).draws } := by
  cases t with
  | read a =>
    simp only [hostTransaction]
    by_cases hb : busTarget s.params a.toNat = .busError
    · rw [hostRead_busError a s hb]
    · rw [hostRead_of_ne a s hb]
  | write a v =>
    simp only [hostTransaction]
    rw [hostWrite_busy a v s h]
    split_ifs <;> rfl

end Sys2Proof.Machine
end

