-- ==== Sys2Proof/Laws/Decode.lean ====
section
/-! SUPPORT. What the decoder can do: a word with a reserved bit is illegal, and every other word is one of 512. -/

namespace Sys2Proof

/-- RSV = 0 says that the word is one of the first 512. -/
theorem Word.reserved_eq_zero (w : Word) : w.reserved = 0 ↔ w.toNat < 512 := by
  have e : w.reserved.toNat = w.toNat / 512 := by
    have := w.isLt
    simp only [Word.reserved, BitVec.extractLsb'_toNat, Nat.shiftRight_eq_div_pow]
    omega
  constructor
  · intro h
    rw [h] at e
    simp at e
    omega
  · intro h
    apply BitVec.eq_of_toNat_eq
    rw [e]
    simp
    omega

/-- A word with a reserved bit set is illegal (30_encoding R105). -/
theorem decode_reserved {w : Word} (h : w.reserved ≠ 0) : decode w = .illegal .reservedBits := if_pos h

/-- The command of a decoded word is there exactly when the word is legal. -/
theorem Decoded.toInstr_eq_some {d : Decoded} {i : Instr} : d.toInstr = some i ↔ d = .command i := by
  cases d <;> simp [Decoded.toInstr]

end Sys2Proof
end

