-- ==== Sys2Proof/Laws/Lfsr.lean ====
section
/-! SUPPORT. What the generator's functions can do: the tap mask as a modulus, the bounds on the state, the lengths of the
streams. -/

namespace Sys2Proof.Machine

theorem tapSize_pos (t : Word) : 0 < tapSize t := Nat.succ_pos _

theorem tapSize_le (t : Word) : tapSize t ≤ 32 := by
  unfold tapSize
  by_cases h : t.toNat = 0
  · simp [h]
  · have : t.toNat.log2 < 32 := (Nat.log2_lt h).2 t.isLt
    omega

/-- mask(T) is size(T) ones (40_lfsr R132). -/
theorem tapMask_toNat (t : Word) : (tapMask t).toNat = 2 ^ tapSize t - 1 := by
  unfold tapMask
  have h1 : 2 ^ tapSize t ≤ 2 ^ 32 := Nat.pow_le_pow_right (by decide) (tapSize_le t)
  have h2 : 0 < 2 ^ tapSize t := Nat.two_pow_pos _
  rw [BitVec.toNat_ofNat, Nat.mod_eq_of_lt (by omega)]

/-- Masking keeps a value modulo 2^size(T). -/
theorem toNat_and_tapMask (x t : Word) : (x &&& tapMask t).toNat = x.toNat % 2 ^ tapSize t := by
  rw [BitVec.toNat_and, tapMask_toNat, Nat.and_two_pow_sub_one_eq_mod]

theorem toNat_and_tapMask_lt (x t : Word) : (x &&& tapMask t).toNat < 2 ^ tapSize t := by
  rw [toNat_and_tapMask]
  exact Nat.mod_lt _ (Nat.two_pow_pos _)

/-- A step leaves a state that fits in size bits (40_lfsr R133). -/
theorem lfsrStep_state_lt (s t : Word) : (lfsrStep s t).2.toNat < 2 ^ tapSize t :=
  toNat_and_tapMask_lt _ _

theorem lfsrPack_succ (k : Nat) (b : Byte) (s t : Word) :
    lfsrPack (k + 1) b s t =
      lfsrPack k ((b <<< 1) ||| (BitVec.ofBool (lfsrStep s t).1).setWidth 8) (lfsrStep s t).2 t := rfl

theorem lfsrPack_state_lt (k : Nat) (b : Byte) (s t : Word) (h : s.toNat < 2 ^ tapSize t) :
    (lfsrPack k b s t).2.toNat < 2 ^ tapSize t := by
  induction k generalizing b s with
  | zero => exact h
  | succ k ih => rw [lfsrPack_succ]; exact ih _ _ (lfsrStep_state_lt s t)

/-- A byte leaves a state that fits in size bits. -/
theorem lfsrByte_state_lt (s t : Word) : (lfsrByte s t).2.toNat < 2 ^ tapSize t := by
  unfold lfsrByte
  rw [lfsrPack_succ]
  exact lfsrPack_state_lt _ _ _ _ (lfsrStep_state_lt s t)

theorem lfsrBytes_zero (s t : Word) : lfsrBytes s t 0 = ([], s) := rfl

theorem lfsrBytes_succ (s t : Word) (l : Nat) :
    lfsrBytes s t (l + 1) =
      ((lfsrByte s t).1 :: (lfsrBytes (lfsrByte s t).2 t l).1, (lfsrBytes (lfsrByte s t).2 t l).2) := rfl

@[simp] theorem lfsrBytes_length (s t : Word) (l : Nat) : (lfsrBytes s t l).1.length = l := by
  induction l generalizing s with
  | zero => rfl
  | succ l ih => rw [lfsrBytes_succ, List.length_cons, ih]

/-- A stream leaves a state that fits in size bits, if it started from one. -/
theorem lfsrBytes_state_lt (s t : Word) (l : Nat) (h : s.toNat < 2 ^ tapSize t) :
    (lfsrBytes s t l).2.toNat < 2 ^ tapSize t := by
  induction l generalizing s with
  | zero => exact h
  | succ l ih => rw [lfsrBytes_succ]; exact ih _ (lfsrByte_state_lt s t)

end Sys2Proof.Machine
end

