-- ==== Sys2Proof/Laws/Diffusion.lean ====
section
/-! SUPPORT. What the permutation's functions can do: the shift of the quotient table, the lengths of the arrays, the bytes of
a gather. -/

namespace Sys2Proof.Machine

/-- The shift of 42_diffusion R183: k = 60 - HighestSetBit(b) is the integer with 2^52 <= b * 2^k / 255 < 2^53. -/
theorem quotient255_shift : ∀ b < 255, b ≠ 0 →
    255 * 2 ^ 52 ≤ b * 2 ^ (60 - b.log2) ∧ b * 2 ^ (60 - b.log2) < 255 * 2 ^ 53 := by
  decide +kernel

@[simp] theorem swapAt_length (idx : List Nat) (i j : Nat) : (swapAt idx i j).length = idx.length := by
  simp [swapAt]

/-- Entry x after a swap of i and j (42_diffusion R181). -/
theorem swapAt_getD (idx : List Nat) (i j x : Nat) (hi : i < idx.length) (hj : j < idx.length) :
    (swapAt idx i j).getD x 0 =
      if x = j then idx.getD i 0 else if x = i then idx.getD j 0 else idx.getD x 0 := by
  unfold swapAt
  by_cases h1 : x = j
  · subst h1
    simp [hj]
  · by_cases h2 : x = i
    · subst h2
      simp [Ne.symm h1, h1, hi]
    · simp [h1, Ne.symm h1, h2, Ne.symm h2]

theorem shuffleFrom_succ (mode : PermIndexMode) (t : Word) (i : Nat) (idx : List Nat) (s : Word) :
    shuffleFrom mode t (i + 1) idx s =
      shuffleFrom mode t i (swapAt idx (i + 1) (permIndex mode (lfsrByte s t).1.toNat (i + 1))) (lfsrByte s t).2 := rfl

@[simp] theorem shuffleFrom_length (mode : PermIndexMode) (t : Word) (i : Nat) (idx : List Nat) (s : Word) :
    (shuffleFrom mode t i idx s).1.length = idx.length := by
  induction i generalizing idx s with
  | zero => rfl
  | succ i ih => rw [shuffleFrom_succ, ih, swapAt_length]

@[simp] theorem shuffle_length (mode : PermIndexMode) (n : Nat) (s t : Word) : (shuffle mode n s t).1.length = n := by
  simp [shuffle]

theorem shuffleFrom_state_lt (mode : PermIndexMode) (t : Word) (i : Nat) (idx : List Nat) (s : Word)
    (h : s.toNat < 2 ^ tapSize t) : (shuffleFrom mode t i idx s).2.toNat < 2 ^ tapSize t := by
  induction i generalizing idx s with
  | zero => exact h
  | succ i ih => rw [shuffleFrom_succ]; exact ih _ _ (lfsrByte_state_lt s t)

/-- Shuffle leaves a state that fits in size bits, if it started from one. -/
theorem shuffle_state_lt (mode : PermIndexMode) (n : Nat) (s t : Word) (h : s.toNat < 2 ^ tapSize t) :
    (shuffle mode n s t).2.toNat < 2 ^ tapSize t := shuffleFrom_state_lt _ _ _ _ _ h

@[simp] theorem indexWords_length (idx : List Nat) : (indexWords idx).length = idx.length := by simp [indexWords]

@[simp] theorem State.indices_length (s : State) (n : Nat) : (s.indices n).length = n := by simp [State.indices]

@[simp] theorem State.pixels_length (s : State) (m : Nat) : (s.pixels m).length = m := by simp [State.pixels]

@[simp] theorem inverse_length (idx : List Nat) (n : Nat) : (inverse idx n).length = n := by simp [inverse]

@[simp] theorem gather_nil (src : Nat → Byte) : gather src [] = [] := rfl

@[simp] theorem gather_cons (src : Nat → Byte) (p : Nat) (idx : List Nat) :
    gather src (p :: idx) = src (3 * p) :: src (3 * p + 1) :: src (3 * p + 2) :: gather src idx := rfl

@[simp] theorem gather_length (src : Nat → Byte) (idx : List Nat) : (gather src idx).length = 3 * idx.length := by
  induction idx with
  | nil => rfl
  | cons p idx ih => simp only [gather_cons, List.length_cons, ih]; omega

/-- Byte 3g + c of a gather is byte c of the group idx[g]. -/
theorem gather_getD (src : Nat → Byte) (idx : List Nat) (g c : Nat) (hg : g < idx.length) (hc : c < 3) :
    (gather src idx).getD (3 * g + c) 0 = src (3 * idx.getD g 0 + c) := by
  induction idx generalizing g with
  | nil => simp at hg
  | cons p idx ih =>
    rw [gather_cons]
    cases g with
    | zero => rcases c with _ | _ | _ | c <;> first | rfl | omega
    | succ g =>
      have h := ih g (by simpa using hg)
      rw [show 3 * (g + 1) + c = (3 * g + c) + 1 + 1 + 1 by omega]
      simpa using h

/-- An index array's entries, read one by one. -/
theorem State.indices_getD (s : State) (n g : Nat) (h : g < n) : (s.indices n).getD g 0 = (s.idxRead g).toNat := by
  simp [State.indices, h]

/-- A buffer's bytes, read one by one. -/
theorem State.pixels_getD (s : State) (m k : Nat) (h : k < m) : (s.pixels m).getD k 0 = s.pixRead k := by
  simp [State.pixels, h]

/-- The XOR of two lists, byte by byte. -/
theorem xorBytes_getD (a b : List Byte) (k : Nat) (ha : k < a.length) (hb : k < b.length) :
    (xorBytes a b).getD k 0 = a.getD k 0 ^^^ b.getD k 0 := by
  simp [xorBytes, ha, hb]

@[simp] theorem xorBytes_length (a b : List Byte) : (xorBytes a b).length = min a.length b.length := by
  simp [xorBytes]

/-- In a permutation of [0, n), every value below n stands somewhere. -/
theorem IsPerm.mem {idx : List Nat} {n v : Nat} (h : IsPerm idx n) (hl : idx.length = n) (hv : v < n) : v ∈ idx := by
  have hsub : idx.toFinset ⊆ Finset.range n := fun x hx =>
    Finset.mem_range.2 (h.1 x (List.mem_toFinset.1 hx))
  have hcard : idx.toFinset.card = (Finset.range n).card := by
    rw [List.toFinset_card_of_nodup h.2, hl, Finset.card_range]
  have := Finset.eq_of_subset_of_card_le hsub hcard.ge
  exact List.mem_toFinset.1 (this ▸ Finset.mem_range.2 hv)

/-- inverse[idx[g]] = g (42_diffusion R185). -/
theorem inverse_getD {idx : List Nat} {n g : Nat} (h : IsPerm idx n) (hg : g < idx.length) :
    (inverse idx n).getD (idx.getD g 0) 0 = g := by
  have hv : idx.getD g 0 = idx[g] := by simp [hg]
  have hlt : idx[g] < n := h.1 _ (List.getElem_mem hg)
  rw [hv]
  simp [inverse, hlt, h.2.idxOf_getElem]

end Sys2Proof.Machine
end

