-- ==== Sys2Proof/Laws/Exec.lean ====
section
/-! SUPPORT. What each command can do, branch by branch: one lemma for each failing check and one for success, so that no
proof unfolds a meaning. -/

namespace Sys2Proof.Machine

/-! ### The generator -/

theorem execLfsrSeed_noTaps {u : LfsrUnit} {s : State} (h : (s.unit u).taps = 0) :
    execLfsrSeed u s = .next (s.finish .invalidTapConfiguration) := if_pos h

theorem execLfsrSeed_ok {u : LfsrUnit} {s : State} (h : (s.unit u).taps ≠ 0) :
    execLfsrSeed u s = .next ((s.setUnit u { s.unit u with
      actTaps := (s.unit u).taps, state := (s.unit u).seed &&& tapMask (s.unit u).taps }).finish .success) := if_neg h

theorem execLfsrStep_noTaps {u : LfsrUnit} {s : State} (h : (s.unit u).actTaps = 0) :
    execLfsrStep u s = .next (s.finish .invalidTapConfiguration) := if_pos h

theorem execLfsrStep_ok {u : LfsrUnit} {s : State} (h : (s.unit u).actTaps ≠ 0) :
    execLfsrStep u s = .next (((s.setUnit u { s.unit u with
      state := (lfsrStep (s.unit u).state (s.unit u).actTaps).2 }).setBitOut
        (lfsrStep (s.unit u).state (s.unit u).actTaps).1).finish .success) := if_neg h

theorem execLfsrGenks_noTaps {u : LfsrUnit} {s : State} (h : (s.unit u).actTaps = 0) :
    execLfsrGenks u s = .next (s.finish .invalidTapConfiguration) := if_pos h

theorem execLfsrGenks_tooLong {u : LfsrUnit} {s : State} (h : (s.unit u).actTaps ≠ 0)
    (hl : s.params.ksMax < s.ksLen.toNat) :
    execLfsrGenks u s = .next (s.finish .invalidKeystreamLength) := (if_neg h).trans (if_pos hl)

theorem execLfsrGenks_ok {u : LfsrUnit} {s : State} (h : (s.unit u).actTaps ≠ 0)
    (hl : s.ksLen.toNat ≤ s.params.ksMax) :
    execLfsrGenks u s = .next (((s.ksWrite 0
      (lfsrBytes (s.unit u).state (s.unit u).actTaps s.ksLen.toNat).1).setUnit u { s.unit u with
        state := (lfsrBytes (s.unit u).state (s.unit u).actTaps s.ksLen.toNat).2 }).finish .success) :=
  (if_neg h).trans (if_neg (Nat.not_lt.2 hl))

/-! ### Confusion -/

theorem execConfuse_shape {s : State} (h : ¬ s.ShapeOk) : execConfuse s = .next (s.finish .shapeMismatch) := if_pos h

theorem execConfuse_length {s : State} (h : s.ShapeOk) (hl : s.ksLen.toNat = 0 ∨ s.params.ksMax < s.ksLen.toNat) :
    execConfuse s = .next (s.finish .invalidKeystreamLength) := (if_neg (not_not.2 h)).trans (if_pos hl)

theorem execConfuse_ok {s : State} (h : s.ShapeOk) (h1 : s.ksLen.toNat ≠ 0) (h2 : s.ksLen.toNat ≤ s.params.ksMax) :
    execConfuse s = .next ((s.pixWrite 0
      ((List.range (3 * s.groups)).map (fun k => s.pixRead k ^^^ s.ksRead (k % s.ksLen.toNat)))).finish .success) :=
  (if_neg (not_not.2 h)).trans (if_neg (by omega))

/-! ### Diffusion -/

/-- The array and the state a DIFFUSE of unit u draws (42_diffusion R184). -/
abbrev State.unitShuffle (s : State) (u : LfsrUnit) : List Nat × Word :=
  shuffle s.params.mode s.groups (s.unit u).state (s.unit u).actTaps

theorem execDiffuse_shape {u : LfsrUnit} {s : State} (h : ¬ s.ShapeOk) :
    execDiffuse u s = .next (s.finish .shapeMismatch) := if_pos h

theorem execDiffuse_noTaps {u : LfsrUnit} {s : State} (h : s.ShapeOk) (ht : (s.unit u).actTaps = 0) :
    execDiffuse u s = .next (s.finish .invalidTapConfiguration) := (if_neg (not_not.2 h)).trans (if_pos ht)

theorem execDiffuse_ok {u : LfsrUnit} {s : State} (h : s.ShapeOk) (ht : (s.unit u).actTaps ≠ 0) :
    execDiffuse u s = .next (((((s.pixWrite 0 (gather s.pixRead (s.unitShuffle u).1)).idxWrite 0
      (indexWords (s.unitShuffle u).1)).setIdxLen (BitVec.ofNat 32 s.groups)).setUnit u
        { s.unit u with state := (s.unitShuffle u).2 }).finish .success) :=
  (if_neg (not_not.2 h)).trans (if_neg ht)

theorem execUndiffuse_shape {s : State} (h : ¬ s.ShapeOk) : execUndiffuse s = .next (s.finish .shapeMismatch) := if_pos h

theorem execUndiffuse_indices {s : State} (h : s.ShapeOk)
    (hi : s.idxLen.toNat ≠ s.groups ∨ ¬ IsPerm (s.indices s.groups) s.groups) :
    execUndiffuse s = .next (s.finish .invalidPermutation) := by
  refine (if_neg (not_not.2 h)).trans ?_
  by_cases hl : s.idxLen.toNat = s.groups
  · exact (if_neg (not_not.2 hl)).trans (if_pos (hi.resolve_left (not_not.2 hl)))
  · exact if_pos hl

theorem execUndiffuse_ok {s : State} (h : s.ShapeOk) (hl : s.idxLen.toNat = s.groups)
    (hp : IsPerm (s.indices s.groups) s.groups) :
    execUndiffuse s = .next ((s.pixWrite 0
      (gather s.pixRead (inverse (s.indices s.groups) s.groups))).finish .success) :=
  (if_neg (not_not.2 h)).trans ((if_neg (not_not.2 hl)).trans (if_neg (not_not.2 hp)))

/-! ### The pipeline -/

/-- The confused buffer of ENCRYPT (43_pipeline R211 step 2). -/
abbrev State.confused (s : State) : List Byte := xorBytes (s.pixels (3 * s.groups)) s.pipelineKeystream

/-- The array ENCRYPT draws from LB (43_pipeline R211 step 4). -/
abbrev State.pipelineShuffle (s : State) : List Nat := (shuffle s.params.mode s.groups s.diffusionSeed s.keyTaps).1

theorem execEncrypt_shape {s : State} (h : ¬ s.ShapeOk) : execEncrypt s = .next (s.finish .shapeMismatch) := if_pos h

theorem execEncrypt_noTaps {s : State} (h : s.ShapeOk) (ht : s.keyTaps = 0) :
    execEncrypt s = .next (s.finish .invalidTapConfiguration) := (if_neg (not_not.2 h)).trans (if_pos ht)

theorem execEncrypt_ok {s : State} (h : s.ShapeOk) (ht : s.keyTaps ≠ 0) :
    execEncrypt s = .next ((((s.pixWrite 0 (gather (fun k => s.confused.getD k 0) s.pipelineShuffle)).idxWrite 0
      (indexWords s.pipelineShuffle)).setIdxLen (BitVec.ofNat 32 s.groups)).finish .success) :=
  (if_neg (not_not.2 h)).trans (if_neg ht)

theorem execDecrypt_shape {s : State} (h : ¬ s.ShapeOk) : execDecrypt s = .next (s.finish .shapeMismatch) := if_pos h

theorem execDecrypt_noTaps {s : State} (h : s.ShapeOk) (ht : s.keyTaps = 0) :
    execDecrypt s = .next (s.finish .invalidTapConfiguration) := (if_neg (not_not.2 h)).trans (if_pos ht)

theorem execDecrypt_indices {s : State} (h : s.ShapeOk) (ht : s.keyTaps ≠ 0)
    (hi : s.idxLen.toNat ≠ s.groups ∨ ¬ IsPerm (s.indices s.groups) s.groups) :
    execDecrypt s = .next (s.finish .invalidPermutation) := by
  refine (if_neg (not_not.2 h)).trans ((if_neg ht).trans ?_)
  by_cases hl : s.idxLen.toNat = s.groups
  · exact (if_neg (not_not.2 hl)).trans (if_pos (hi.resolve_left (not_not.2 hl)))
  · exact if_pos hl

theorem execDecrypt_ok {s : State} (h : s.ShapeOk) (ht : s.keyTaps ≠ 0) (hl : s.idxLen.toNat = s.groups)
    (hp : IsPerm (s.indices s.groups) s.groups) :
    execDecrypt s = .next ((s.pixWrite 0 (xorBytes
      (gather s.pixRead (inverse (s.indices s.groups) s.groups)) s.pipelineKeystream)).finish .success) :=
  (if_neg (not_not.2 h)).trans ((if_neg ht).trans ((if_neg (not_not.2 hl)).trans (if_neg (not_not.2 hp))))

/-! ### All commands at once -/

/-- What the completion of a command can make of the state, shape by shape. It says which fields a command may change and
with which values; the failing branch is any code with nothing else changed (60_exceptions R244). -/
inductive Did (s : State) : Instr → State → Prop where
  /-- Any failure, and NOP: ERR and BUSY only. -/
  | ended (i : Instr) (e : ErrCode) : Did s i (s.finish e)
  | seeded (u : LfsrUnit) (h : (s.unit u).taps ≠ 0) :
    Did s (.lfsrSeed u) ((s.setUnit u { s.unit u with
      actTaps := (s.unit u).taps, state := (s.unit u).seed &&& tapMask (s.unit u).taps }).finish .success)
  | stepped (u : LfsrUnit) (h : (s.unit u).actTaps ≠ 0) :
    Did s (.lfsrStep u) (((s.setUnit u { s.unit u with
      state := (lfsrStep (s.unit u).state (s.unit u).actTaps).2 }).setBitOut
        (lfsrStep (s.unit u).state (s.unit u).actTaps).1).finish .success)
  | generated (u : LfsrUnit) (h : (s.unit u).actTaps ≠ 0) (hl : s.ksLen.toNat ≤ s.params.ksMax) :
    Did s (.lfsrGenks u) (((s.ksWrite 0
      (lfsrBytes (s.unit u).state (s.unit u).actTaps s.ksLen.toNat).1).setUnit u { s.unit u with
        state := (lfsrBytes (s.unit u).state (s.unit u).actTaps s.ksLen.toNat).2 }).finish .success)
  /-- CONFUSE, UNDIFFUSE and DECRYPT: 3n bytes of PIXMEM. -/
  | rewrote (i : Instr) (hi : i ∈ [Instr.confuse, .undiffuse, .decrypt]) (h : s.ShapeOk) (vs : List Byte)
    (hv : vs.length = 3 * s.groups) : Did s i ((s.pixWrite 0 vs).finish .success)
  | diffused (u : LfsrUnit) (h : s.ShapeOk) (ht : (s.unit u).actTaps ≠ 0) :
    Did s (.diffuse u) (((((s.pixWrite 0 (gather s.pixRead (s.unitShuffle u).1)).idxWrite 0
      (indexWords (s.unitShuffle u).1)).setIdxLen (BitVec.ofNat 32 s.groups)).setUnit u
        { s.unit u with state := (s.unitShuffle u).2 }).finish .success)
  | encrypted (h : s.ShapeOk) (vs : List Byte) (hv : vs.length = 3 * s.groups) (ws : List Word) (hw : ws.length = s.groups) :
    Did s .encrypt ((((s.pixWrite 0 vs).idxWrite 0 ws).setIdxLen (BitVec.ofNat 32 s.groups)).finish .success)

/-- Every command answers a next state, of one of these shapes. -/
theorem exec_did (i : Instr) (s : State) : ∃ t, exec i s = .next t ∧ Did s i t := by
  cases i with
  | nop => exact ⟨_, rfl, .ended _ _⟩
  | lfsrSeed u =>
    by_cases h : (s.unit u).taps = 0
    · exact ⟨_, execLfsrSeed_noTaps h, .ended _ _⟩
    · exact ⟨_, execLfsrSeed_ok h, .seeded u h⟩
  | lfsrStep u =>
    by_cases h : (s.unit u).actTaps = 0
    · exact ⟨_, execLfsrStep_noTaps h, .ended _ _⟩
    · exact ⟨_, execLfsrStep_ok h, .stepped u h⟩
  | lfsrGenks u =>
    by_cases h : (s.unit u).actTaps = 0
    · exact ⟨_, execLfsrGenks_noTaps h, .ended _ _⟩
    · by_cases hl : s.params.ksMax < s.ksLen.toNat
      · exact ⟨_, execLfsrGenks_tooLong h hl, .ended _ _⟩
      · exact ⟨_, execLfsrGenks_ok h (Nat.not_lt.1 hl), .generated u h (Nat.not_lt.1 hl)⟩
  | confuse =>
    by_cases h : s.ShapeOk
    · by_cases hl : s.ksLen.toNat = 0 ∨ s.params.ksMax < s.ksLen.toNat
      · exact ⟨_, execConfuse_length h hl, .ended _ _⟩
      · exact ⟨_, execConfuse_ok h (by omega) (by omega), .rewrote _ (by simp) h _ (by simp)⟩
    · exact ⟨_, execConfuse_shape h, .ended _ _⟩
  | diffuse u =>
    by_cases h : s.ShapeOk
    · by_cases hl : (s.unit u).actTaps = 0
      · exact ⟨_, execDiffuse_noTaps h hl, .ended _ _⟩
      · exact ⟨_, execDiffuse_ok h hl, .diffused u h hl⟩
    · exact ⟨_, execDiffuse_shape h, .ended _ _⟩
  | undiffuse =>
    by_cases h : s.ShapeOk
    · by_cases hl : s.idxLen.toNat ≠ s.groups ∨ ¬ IsPerm (s.indices s.groups) s.groups
      · exact ⟨_, execUndiffuse_indices h hl, .ended _ _⟩
      · push Not at hl
        exact ⟨_, execUndiffuse_ok h hl.1 hl.2, .rewrote _ (by simp) h _ (by simp)⟩
    · exact ⟨_, execUndiffuse_shape h, .ended _ _⟩
  | encrypt =>
    by_cases h : s.ShapeOk
    · by_cases hl : s.keyTaps = 0
      · exact ⟨_, execEncrypt_noTaps h hl, .ended _ _⟩
      · exact ⟨_, execEncrypt_ok h hl, .encrypted h _ (by simp) _ (by simp)⟩
    · exact ⟨_, execEncrypt_shape h, .ended _ _⟩
  | decrypt =>
    by_cases h : s.ShapeOk
    · by_cases ht : s.keyTaps = 0
      · exact ⟨_, execDecrypt_noTaps h ht, .ended _ _⟩
      · by_cases hl : s.idxLen.toNat ≠ s.groups ∨ ¬ IsPerm (s.indices s.groups) s.groups
        · exact ⟨_, execDecrypt_indices h ht hl, .ended _ _⟩
        · push Not at hl
          exact ⟨_, execDecrypt_ok h ht hl.1 hl.2, .rewrote _ (by simp) h _ (by simp [State.pipelineKeystream])⟩
    · exact ⟨_, execDecrypt_shape h, .ended _ _⟩

end Sys2Proof.Machine
end

