-- ==== Sys2Proof/Laws/PerInstr.lean ====
section
/-! SUPPORT. The family RoundTrip, one lemma a constructor of Instr: the encoder gives a well-formed word and the decoder
reads the command back from it (30_encoding R104, R105). -/

namespace Sys2Proof.Laws.RoundTrip

/-- The word of a command is well formed and decodes to that command. -/
def Statement (i : Instr) : Prop := (encode i).wellFormed = true ∧ decode (encode i) = .command i

theorem nop : Statement .nop := by
  unfold Statement
  decide

theorem lfsrSeed (u : LfsrUnit) : Statement (.lfsrSeed u) := by
  unfold Statement
  cases u <;> decide

theorem lfsrStep (u : LfsrUnit) : Statement (.lfsrStep u) := by
  unfold Statement
  cases u <;> decide

theorem lfsrGenks (u : LfsrUnit) : Statement (.lfsrGenks u) := by
  unfold Statement
  cases u <;> decide

theorem confuse : Statement .confuse := by
  unfold Statement
  decide

theorem diffuse (u : LfsrUnit) : Statement (.diffuse u) := by
  unfold Statement
  cases u <;> decide

theorem undiffuse : Statement .undiffuse := by
  unfold Statement
  decide

theorem encrypt : Statement .encrypt := by
  unfold Statement
  decide

theorem decrypt : Statement .decrypt := by
  unfold Statement
  decide

end Sys2Proof.Laws.RoundTrip
end

