-- ==== Sys2Proof/Laws/Step.lean ====
section
/-! SUPPORT. What a step can do, said once: the inversion of step and of the engine's turn. -/

namespace Sys2Proof.Machine

/-- What the engine's turn can be: waiting, a command's completion, or an illegal word's. -/
theorem engineTurn_cases (s : State) :
    (s.engine = .idle ∧ engineTurn s = .next s) ∨
    (∃ w i, s.engine = .busy w ∧ decode w = .command i ∧ engineTurn s = exec i s) ∨
    (∃ w why, s.engine = .busy w ∧ decode w = .illegal why ∧ engineTurn s = .next (s.finish .illegalCommand)) := by
  unfold engineTurn
  cases he : s.engine with
  | idle => exact .inl ⟨rfl, rfl⟩
  | busy w =>
    cases hd : decode w with
    | command i => exact .inr (.inl ⟨w, i, rfl, hd, by simp only [hd]⟩)
    | illegal why => exact .inr (.inr ⟨w, why, rfl, hd, by simp only [hd]; rfl⟩)

/-- What a step can be: the engine's turn, a host transaction, or a reset. -/
theorem step_cases (s : State) :
    (s.inputs = [] ∧ step s = engineTurn s) ∨
    (∃ rest, s.inputs = .engine :: rest ∧ step s = engineTurn { s with inputs := rest }) ∨
    (∃ t rest, s.inputs = .host t :: rest ∧ step s = .next (hostTransaction t { s with inputs := rest })) ∨
    (∃ rest, s.inputs = .reset :: rest ∧ step s = .next (applyReset { s with inputs := rest })) := by
  unfold step
  cases h : s.inputs with
  | nil => exact .inl ⟨rfl, rfl⟩
  | cons x rest =>
    cases x with
    | engine => exact .inr (.inl ⟨rest, rfl, rfl⟩)
    | host t => exact .inr (.inr (.inl ⟨t, rest, rfl, rfl⟩))
    | reset => exact .inr (.inr (.inr ⟨rest, rfl, rfl⟩))

/-! ### Reset -/

@[simp] theorem freeWords_length (d n : Nat) : (freeWords d n).length = n := by simp [freeWords]

@[simp] theorem freeBytes_length (d n : Nat) : (freeBytes d n).length = n := by simp [freeBytes]

/-- What an abort leaves of PIXMEM: a draw below the write set's end, its value above (70_reset R273). -/
theorem State.pixRead_abort (s : State) (k : Nat) (h : s.pixBusy ≤ k) : s.abort.pixRead k = s.pixRead k := by
  have h1 : ¬ (0 ≤ k ∧ k < 0 + min s.pixBusy (3 * s.params.maxGroups)) := by omega
  have : s.abort.pixRead k =
      (s.pixWrite 0 (freeBytes s.draws (min s.pixBusy (3 * s.params.maxGroups)))).pixRead k := rfl
  rw [this, State.pixRead_pixWrite, freeBytes_length, if_neg h1]

/-- What an abort leaves of IDXMEM (70_reset R273). -/
theorem State.idxRead_abort (s : State) (g : Nat) (h : s.idxBusy ≤ g) : s.abort.idxRead g = s.idxRead g := by
  have h1 : ¬ (0 ≤ g ∧ g < 0 + min s.idxBusy s.params.maxGroups) := by omega
  have : s.abort.idxRead g = (s.idxWrite 0 (freeWords (s.draws + min s.pixBusy (3 * s.params.maxGroups))
      (min s.idxBusy s.params.maxGroups))).idxRead g := rfl
  rw [this, State.idxRead_idxWrite, freeWords_length, if_neg h1]

/-- What an abort leaves of KSMEM (70_reset R273). -/
theorem State.ksRead_abort (s : State) (k : Nat) (h : s.ksBusy ≤ k) : s.abort.ksRead k = s.ksRead k := by
  have h1 : ¬ (0 ≤ k ∧ k < 0 + min s.ksBusy s.params.ksMax) := by omega
  have : s.abort.ksRead k = (s.ksWrite 0 (freeBytes (s.draws + min s.pixBusy (3 * s.params.maxGroups) +
      min s.idxBusy s.params.maxGroups) (min s.ksBusy s.params.ksMax))).ksRead k := rfl
  rw [this, State.ksRead_ksWrite, freeBytes_length, if_neg h1]

end Sys2Proof.Machine
end

