-- ==== Sys2Proof/Tests/Slice0.lean ====
section
/-! SUPPORT. The model's own tests: the words of 30_encoding R104 and of vector SY-2, one-step vectors of 95_test_vectors, and for
every statement with hypotheses a witness that meets them. Expected values come from the spec, never from the model. -/

namespace Sys2Proof.Tests

open Sys2Proof
open Sys2Proof.Machine

-- One theorem at a time: elaborated side by side, the tests start more threads than the memory limit allows.
set_option Elab.async false

/-! ### Small states -/

/-- MAX_GROUPS = 16 and KS_MAX = 48, as programs P1 to P6 and vector MB-2 need. -/
def params16 (mode : PermIndexMode) : Params :=
  { groupQuads := 3, ksQuads := 11, mode := mode, diffSeedXor := 0x00A5A5A5#32 }

/-- That instance right after reset. -/
def fresh : State := State.resetWith (params16 .binary64)

def bytes (vs : List Nat) : List Byte := vs.map (BitVec.ofNat 8)

def words (vs : List Nat) : List Word := vs.map (BitVec.ofNat 32)

/-- A raster in PIXMEM. -/
def raster (h w : Word) (vs : List Nat) : State := { fresh with height := h, width := w }.pixWrite 0 (bytes vs)

/-- A raster with an index array. -/
def indexed (h w len : Word) (vs idx : List Nat) : State := { (raster h w vs).idxWrite 0 (words idx) with idxLen := len }

/-- The pipeline key of the vectors. -/
def keyed (s : State) : State := { s with keySeed := 0xACE1, keyTaps := 0x16800 }

/-- A constructed unit. -/
def regsOf (taps state : Word) : LfsrRegs := { seed := state, taps := taps, actTaps := taps, state := state }

/-- The n bytes of PIXMEM and the n entries of IDXMEM from 0, and the n bytes of KSMEM. -/
def pix (s : State) (n : Nat) : List Byte := (List.range n).map s.pixRead
def idx (s : State) (n : Nat) : List Word := (List.range n).map s.idxRead
def ks (s : State) (n : Nat) : List Byte := (List.range n).map s.ksRead

/-- A question about the state an answer gives, if it gives one. -/
def after {A : Type} (r : Result) (f : State → A) : Option A :=
  match r with
  | .next t => some (f t)
  | .fault _ => none
  | .refused _ => none

/-! ### Well-formedness: one ill-formed word for each check -/

/-- RSV bit 9 (SY-2). -/
theorem test_wellFormed_refuses_reserved : Word.reservedOk 0x00000201 = false ∧ Word.wellFormed 0x00000201 = false := by decide

/-- An OPCODE outside the map (SY-2). -/
theorem test_wellFormed_refuses_opcode : Word.opcodeOk 0x00000004 = false ∧ Word.wellFormed 0x00000004 = false := by decide

/-- NOP with U = 1 (SY-2). -/
theorem test_wellFormed_refuses_unit : Word.unitOk 0x00000100 = false ∧ Word.wellFormed 0x00000100 = false := by decide

/-! ### Decoding: the 13 words of R104 (SY-3), and the words of SY-2 -/

theorem test_decode_system : decode 0b00000000000000000000000000000000 = .command .nop := by decide

theorem test_decode_lfsr :
    decode 0b00000000000000000000000000000001 = .command (.lfsrSeed .u0) ∧
    decode 0b00000000000000000000000100000001 = .command (.lfsrSeed .u1) ∧
    decode 0b00000000000000000000000000000010 = .command (.lfsrStep .u0) ∧
    decode 0b00000000000000000000000100000010 = .command (.lfsrStep .u1) ∧
    decode 0b00000000000000000000000000000011 = .command (.lfsrGenks .u0) ∧
    decode 0b00000000000000000000000100000011 = .command (.lfsrGenks .u1) := by decide

theorem test_decode_confusion : decode 0b00000000000000000000000000010000 = .command .confuse := by decide

theorem test_decode_diffusion :
    decode 0b00000000000000000000000000100000 = .command (.diffuse .u0) ∧
    decode 0b00000000000000000000000100100000 = .command (.diffuse .u1) ∧
    decode 0b00000000000000000000000000100001 = .command .undiffuse := by decide

theorem test_decode_pipeline :
    decode 0b00000000000000000000000000110000 = .command .encrypt ∧
    decode 0b00000000000000000000000000110001 = .command .decrypt := by decide

/-- SY-2. -/
theorem test_decode_illegal :
    ([0x00000100, 0x00000004, 0x00000011, 0x00000022, 0x00000032, 0x000000FF, 0x00000110, 0x00000121, 0x00000130,
      0x00000131, 0x00000201, 0x80000000, 0xFFFFFFFF] : List Word).map (fun w => (decode w).toInstr) =
      List.replicate 13 none := by decide

/-- The host's entry: each row's match of spec/opcode_table.json. -/
theorem test_decodeTableWord :
    [0x00, 0x101, 0x02, 0x103, 0x10, 0x120, 0x21, 0x30, 0x31].map (decodeTableWord 32) =
      [some .nop, some (.lfsrSeed .u1), some (.lfsrStep .u0), some (.lfsrGenks .u1), some .confuse, some (.diffuse .u1),
       some .undiffuse, some .encrypt, some .decrypt] := by decide

/-! ### One step of each command -/

/-- SY-1: NOP clears a stale ERR. -/
theorem test_nop :
    after (exec .nop { fresh with err := .shapeMismatch, engine := .busy 0 }) (fun t => t) = some fresh := by decide +kernel

/-- R136's example: SEED_0 = 0xFFFEACE1 is truncated to 17 bits. -/
theorem test_lfsrSeed_truncates :
    after (exec (.lfsrSeed .u0) { fresh with unit0 := { seed := 0xFFFEACE1, taps := 0x16800, actTaps := 0, state := 0 } })
      (fun t => (t.err, t.unit0.actTaps, t.unit0.state)) = some (.success, 0x16800, 0xACE1) := by decide +kernel

/-- LF-4: TAPS_1 = 0 leaves a constructed unit as it was. -/
theorem test_lfsrSeed_noTaps :
    after (exec (.lfsrSeed .u1) { fresh with unit1 := { seed := 7, taps := 0, actTaps := 0x16800, state := 0x1234 } })
      (fun t => (t.err, t.unit1)) =
      some (.invalidTapConfiguration, { seed := 7, taps := 0, actTaps := 0x16800, state := 0x1234 }) := by decide +kernel

/-- LF-1 row 1. -/
theorem test_lfsrStep :
    after (exec (.lfsrStep .u0) { fresh with unit0 := regsOf 0x16800 0x159C2 }) (fun t => (t.bitOut, t.unit0.state)) =
      some (true, 0x0B385) := by decide +kernel

/-- R137: with size 32 the bit shifted out of bit 31 is discarded (LF-3's row 0x80000001, 0x80000000: the first output bit of
80 is 1). -/
theorem test_lfsrStep_size32 :
    after (exec (.lfsrStep .u1) { fresh with unit1 := regsOf 0x80000000 0x80000001 }) (fun t => (t.bitOut, t.unit1.state)) =
      some (true, 0x00000003) := by decide +kernel

/-- LF-2. -/
theorem test_lfsrGenks :
    after (exec (.lfsrGenks .u0) { fresh with unit0 := regsOf 0x16800 0xACE1, ksLen := 8 })
      (fun t => (ks t 8, t.unit0.state)) =
      some (bytes [0x72, 0x20, 0xB7, 0xD8, 0x96, 0xB6, 0x57, 0x8B], 0x0578B) := by decide +kernel

/-- LF-3, the row of seed 0xFFFFFFFF and taps 0x80200003. -/
theorem test_lfsrGenks_size32 :
    after (exec (.lfsrGenks .u0) { fresh with unit0 := regsOf 0x80200003 0xFFFFFFFF, ksLen := 4 })
      (fun t => (ks t 4, t.unit0.state)) = some (bytes [0x6D, 0xB6, 0xD8, 0x61], 0x6DB6D861) := by decide +kernel

/-- CF-1: cyclic reuse. -/
theorem test_confuse_cycles :
    after (exec .confuse ({ raster 1 2 [0, 1, 2, 3, 4, 5] with ksLen := 4 }.ksWrite 0 (bytes [1, 2, 4, 8])))
      (fun t => pix t 6) = some (bytes [0x01, 0x03, 0x06, 0x0B, 0x05, 0x07]) := by decide +kernel

/-- CF-2: a keystream longer than the buffer; PIXMEM[3] is untouched. -/
theorem test_confuse_long :
    after (exec .confuse ({ raster 1 1 [0xFF, 0xFF, 0xFF, 0x5A] with ksLen := 5 }.ksWrite 0 (bytes [0x0F, 0xF0, 0, 0xAA, 0xBB])))
      (fun t => pix t 4) = some (bytes [0xF0, 0x0F, 0xFF, 0x5A]) := by decide +kernel

/-- DF-3. -/
theorem test_diffuse :
    after (exec (.diffuse .u1) { raster 1 2 [0x62, 0x00, 0x87, 0x98, 0xC6, 0xD6] with unit1 := regsOf 0x16800 0x10944 })
      (fun t => (pix t 6, idx t 2, t.idxLen, t.unit1.state)) =
      some (bytes [0x98, 0xC6, 0xD6, 0x62, 0x00, 0x87], words [1, 0], 2, 0x14427) := by decide +kernel

/-- DF-4: the all-zero stream. -/
theorem test_diffuse_zeroStream :
    after (exec (.diffuse .u0) { raster 1 5 (List.range 15) with unit0 := regsOf 0x16800 0 })
      (fun t => (pix t 15, idx t 5)) =
      some (bytes [3, 4, 5, 6, 7, 8, 9, 10, 11, 12, 13, 14, 0, 1, 2], words [1, 2, 3, 4, 0]) := by decide +kernel

/-- UN-2: IDXMEM = 2, 0, 1. -/
theorem test_undiffuse :
    after (exec .undiffuse (indexed 1 3 3 (List.range 9) [2, 0, 1])) (fun t => (t.err, pix t 9)) =
      some (.success, bytes [3, 4, 5, 6, 7, 8, 0, 1, 2]) := by decide +kernel

/-- UN-2: a duplicate, an entry out of range, and a length mismatch. -/
theorem test_undiffuse_invalid :
    [indexed 1 3 3 (List.range 9) [0, 2, 2], indexed 1 3 3 (List.range 9) [0, 1, 3],
     indexed 1 3 3 (List.range 9) [0, 1, 0xFFFFFFFF], indexed 1 3 2 (List.range 9) [0, 1, 2]].map
      (fun s => after (exec .undiffuse s) (fun t => (t.err, pix t 9))) =
      List.replicate 4 (some (.invalidPermutation, bytes (List.range 9))) := by decide +kernel

/-- 43_pipeline R216, the source's concrete case. -/
theorem test_encrypt :
    after (exec .encrypt (keyed (raster 4 4 (List.range 48)))) (fun t => (pix t 24, idx t 16, t.idxLen)) =
      some (bytes [0xEE, 0x85, 0xBF, 0x33, 0x7C, 0x0F, 0x4F, 0x32, 0xDF, 0x25, 0xA4, 0x0F, 0x19, 0xB1, 0x70, 0x65, 0xE2, 0x1E,
        0x78, 0x53, 0x2D, 0xE8, 0xA9, 0xEA],
        words [8, 10, 3, 13, 7, 12, 15, 11, 4, 5, 0, 14, 1, 9, 6, 2], 16) := by decide +kernel

/-- W5: one group. -/
theorem test_encrypt_oneGroup :
    after (exec .encrypt (keyed (raster 1 1 [0x10, 0x20, 0x30]))) (fun t => (pix t 3, idx t 1, t.idxLen)) =
      some (bytes [0x62, 0x00, 0x87], words [0], 1) := by decide +kernel

/-- PL-2's second half. -/
theorem test_decrypt :
    after (exec .decrypt (keyed (indexed 1 2 2 [0x98, 0xC6, 0xD6, 0x62, 0x00, 0x87] [1, 0]))) (fun t => (t.err, pix t 6)) =
      some (.success, bytes [0x10, 0x20, 0x30, 0x40, 0x50, 0x60]) := by decide +kernel

/-- PL-5: the order of DECRYPT's checks, HEIGHT = 0 and KEY_TAPS = 0; then KEY_TAPS = 0 and a wrong IDX_LEN. -/
theorem test_decrypt_order :
    after (exec .decrypt (indexed 0 2 2 [] [])) (fun t => t.err) = some .shapeMismatch ∧
    after (exec .decrypt (indexed 1 2 7 [] [])) (fun t => t.err) = some .invalidTapConfiguration := by decide +kernel

/-- CF-4: the product is exact, 0x10000 * 0x10000 is not 0. -/
theorem test_shape_exact :
    after (exec .confuse { fresh with height := 0x10000, width := 0x10000, ksLen := 1 }) (fun t => t.err) =
      some .shapeMismatch := by decide +kernel

/-- DF-1: the last five rows, where the modes differ, in both modes. -/
theorem test_permIndex :
    [(155, 51), (187, 75), (147, 85), (171, 85), (155, 102)].map (fun x => (permIndex .exact x.1 x.2, permIndex .binary64 x.1 x.2)) =
      [(31, 30), (55, 54), (49, 48), (57, 56), (62, 61)] := by decide +kernel

/-- R183's table, rows 1, 66, 127, 252 and 255. -/
theorem test_quotient255 :
    [1, 66, 127, 252, 255].map quotient255 =
      [(0x10101010101010, 60), (0x10909090909091, 54), (0x1FDFDFDFDFDFE0, 54), (0x1F9F9F9F9F9FA0, 53),
       (0x10000000000000, 52)] := by decide +kernel

/-- DF-5: a shuffle of 52 on which the modes differ. -/
theorem test_shuffle_modes :
    ((shuffle .binary64 52 0xA20 0x16800).1.getD 16 0, (shuffle .exact 52 0xA20 0x16800).1.getD 16 0,
     (shuffle .binary64 52 0xA20 0x16800).2) = (31, 51, 0x1C8A1) := by decide +kernel

/-! ### The step and the bus -/

/-- A placed word is the next thing the machine runs, from reset: UNDIFFUSE finds HEIGHT = 0 (10_state R60). -/
theorem test_withFetchWord :
    after (step (State.reset.withFetchWord 32 0x21)) (fun t => (t.err, t.engine, t.cmd)) =
      some (.shapeMismatch, .idle, 0x21) := by decide +kernel

/-- SY-2: an illegal word ends with STATUS = 0x40, CMD as written. -/
theorem test_illegal :
    after (step (fresh.withFetchWord 32 0x00000201)) (fun t => (t.statusWord, t.cmd)) = some (0x40, 0x201) := by decide +kernel

/-- MB-1: little-endian packing. -/
theorem test_bus_littleEndian : pix (hostWrite 0x1000000 0x03020100 fresh) 4 = bytes [0, 1, 2, 3] := by decide +kernel

/-- MB-2: misaligned, unmapped, past the window, and a reserved offset. -/
theorem test_bus_errors :
    (hostRead 0x0000002 fresh).buserr = true ∧ (hostRead 0x0000100 fresh).lastRead = 0 ∧
    (hostWrite 0x1000030 1 fresh).statusWord = 0x200 ∧ (hostRead 0x0000080 fresh).buserr = false ∧
    (hostWrite 0x24 0x200 (hostRead 0x0000002 fresh)).statusWord = 0 := by decide +kernel

/-- P6: a write to HEIGHT while DECRYPT runs is dropped and sets OVERRUN. -/
theorem test_bus_overrun :
    after (step { fresh with engine := .busy 0x31, inputs := [.host (.write 0x028 5)] }) (fun t => (t.height, t.overrun, t.violation)) =
      some (0, true, true) := by decide +kernel

/-- MB-3: STATE_0 is read only; ID reads 0x4C465352. -/
theorem test_bus_readOnly : hostWrite 0x04C 5 fresh = fresh ∧ (hostRead 0x000 fresh).lastRead = 0x4C465352 := by decide +kernel

/-! ### Witnesses: for each statement with hypotheses, states and operands that meet them, at the edges of their ranges -/

/-- HighestSetBit from a check of the 32 bits. -/
theorem highestSetBit_of (t : Word) (p : Nat) (h : t.getLsbD p = true ∧ ∀ q < 32, p < q → t.getLsbD q = false) :
    HighestSetBit t p := by
  refine ⟨h.1, fun q hq => ?_⟩
  by_cases h32 : q < 32
  · exact h.2 q h32 hq
  · exact BitVec.getLsbD_of_ge t q (by omega)

/-- A square raster, 4 by 4, with a key, a constructed unit 0 and a valid index array. -/
def full : State :=
  { keyed (indexed 4 4 16 (List.range 48) (List.range 16)) with unit0 := regsOf 0x16800 0xACE1, ksLen := 48 }

/-- That state with DECRYPT running. -/
def fullBusy : State := { full with engine := .busy 0x31, cmd := 0x31 }

/-- OpcodeMapGivesThirteenLegalWords: a word outside the list, the largest. -/
theorem test_witness_OpcodeMapGivesThirteenLegalWords :
    (0xFFFFFFFF : Word) ∉
      ([0x00, 0x01, 0x101, 0x02, 0x102, 0x03, 0x103, 0x10, 0x20, 0x120, 0x21, 0x30, 0x31] : List Word) := by decide

/-- StepRunsTheDecodedCommand, both clauses. -/
theorem test_witness_StepRunsTheDecodedCommand :
    decode 0x31 = .command .decrypt ∧ fullBusy.engine = .busy 0x31 ∧ fullBusy.inputs = [] ∧
    { fullBusy with inputs := [.engine, .reset] }.inputs = .engine :: [.reset] := by decide +kernel

/-- IllegalWordEndsInIllegalCommand, both clauses. -/
theorem test_witness_IllegalWordEndsInIllegalCommand :
    decode 0x100 = .illegal .unitBitSet ∧ { full with engine := .busy 0x100 }.engine = .busy 0x100 ∧
    { full with engine := .busy 0x100 }.inputs = [] ∧
    { full with engine := .busy 0x100, inputs := [.engine] }.inputs = .engine :: [] := by decide +kernel

/-- StepFollowsItsInputs, its four clauses. -/
theorem test_witness_StepFollowsItsInputs :
    full.engine = .idle ∧ full.inputs = [] ∧ { full with inputs := [.engine] }.engine = .idle ∧
    { full with inputs := [.engine] }.inputs = .engine :: [] ∧
    { full with inputs := [.host (.read 0)] }.inputs = .host (.read 0) :: [] ∧
    { full with inputs := [.reset] }.inputs = .reset :: [] := by decide +kernel

/-- BusyChangesOnlyAtAcceptanceAndCompletion: a step that sets BUSY, a step that clears it, and a waiting engine. -/
theorem test_witness_BusyChangesOnlyAtAcceptanceAndCompletion :
    full.isBusy = false ∧
    after (step { full with inputs := [.host (.write 0x020 0)] }) (fun t => t.isBusy) = some true ∧
    fullBusy.isBusy = true ∧ after (step fullBusy) (fun t => t.isBusy) = some false ∧
    after (step { fullBusy with inputs := [.reset] }) (fun t => t.isBusy) = some false := by decide +kernel

/-- LfsrSeedConstructsTheUnit: TAPS_u = 0, and tap masks of size 1 and 32. -/
theorem test_witness_LfsrSeedConstructsTheUnit :
    (fresh.unit .u1).taps = 0 ∧
    HighestSetBit ({ fresh with unit0 := regsOf 1 1 }.unit .u0).taps 0 ∧
    HighestSetBit ({ fresh with unit1 := regsOf 0x80200003 1 }.unit .u1).taps 31 :=
  ⟨rfl, highestSetBit_of _ 0 (by decide +kernel), highestSetBit_of _ 31 (by decide +kernel)⟩

/-- LfsrStepDrawsOneBit, both clauses. -/
theorem test_witness_LfsrStepDrawsOneBit :
    (fresh.unit .u0).actTaps = 0 ∧ (full.unit .u0).actTaps ≠ 0 := by decide +kernel

/-- LfsrGenksWritesTheKeystream: no taps; KS_LEN = KS_MAX + 1; KS_LEN = KS_MAX. -/
theorem test_witness_LfsrGenksWritesTheKeystream :
    (fresh.unit .u0).actTaps = 0 ∧ ({ full with ksLen := 49 }.unit .u0).actTaps ≠ 0 ∧
    { full with ksLen := 49 }.ksLen.toNat > { full with ksLen := 49 }.params.ksMax ∧
    (full.unit .u0).actTaps ≠ 0 ∧ full.ksLen.toNat = full.params.ksMax := by decide +kernel

/-- ConfuseXorsTheCyclicKeystream: n = MAX_GROUPS + 1; KS_LEN = 0; KS_LEN = KS_MAX + 1; KS_LEN = 1 and n = MAX_GROUPS. -/
theorem test_witness_ConfuseXorsTheCyclicKeystream :
    ¬ (raster 17 1 []).ShapeOk ∧ full.ShapeOk ∧ { full with ksLen := 0 }.ksLen.toNat = 0 ∧
    { full with ksLen := 49 }.ksLen.toNat > full.params.ksMax ∧
    { full with ksLen := 1 }.ShapeOk ∧ { full with ksLen := 1 }.ksLen.toNat = 1 := by decide +kernel

/-- DiffuseGathersByItsShuffle: no shape (WIDTH = 0); no taps; both in order. -/
theorem test_witness_DiffuseGathersByItsShuffle :
    ¬ (raster 1 0 []).ShapeOk ∧ full.ShapeOk ∧ (full.unit .u1).actTaps = 0 ∧ (full.unit .u0).actTaps ≠ 0 := by
  decide +kernel

/-- UndiffuseGathersByTheInverse: no shape (HEIGHT = 0); a wrong IDX_LEN; a duplicate; a valid array. -/
theorem test_witness_UndiffuseGathersByTheInverse :
    ¬ (raster 0 1 []).ShapeOk ∧
    ((indexed 1 2 3 [] [1, 0]).ShapeOk ∧ (indexed 1 2 3 [] [1, 0]).idxLen.toNat ≠ (indexed 1 2 3 [] [1, 0]).groups) ∧
    ((indexed 1 2 2 [] [1, 1]).ShapeOk ∧
      ¬ IsPerm ((indexed 1 2 2 [] [1, 1]).indices (indexed 1 2 2 [] [1, 1]).groups) (indexed 1 2 2 [] [1, 1]).groups) ∧
    (full.ShapeOk ∧ full.idxLen.toNat = full.groups ∧ IsPerm (full.indices full.groups) full.groups) := by
  decide +kernel

/-- EncryptConfusesThenDiffuses: no shape; no key taps; both in order. -/
theorem test_witness_EncryptConfusesThenDiffuses :
    ¬ (raster 17 1 []).ShapeOk ∧ (raster 1 1 []).ShapeOk ∧ (raster 1 1 []).keyTaps = 0 ∧
    full.ShapeOk ∧ full.keyTaps ≠ 0 := by decide +kernel

/-- DecryptUndiffusesThenDeconfuses: no shape; no key taps; a wrong IDX_LEN; all in order. -/
theorem test_witness_DecryptUndiffusesThenDeconfuses :
    ¬ (raster 17 1 []).ShapeOk ∧ (raster 1 1 []).ShapeOk ∧ (raster 1 1 []).keyTaps = 0 ∧
    ((keyed (indexed 1 2 3 [] [1, 0])).ShapeOk ∧ (keyed (indexed 1 2 3 [] [1, 0])).keyTaps ≠ 0 ∧
      (keyed (indexed 1 2 3 [] [1, 0])).idxLen.toNat ≠ (keyed (indexed 1 2 3 [] [1, 0])).groups) ∧
    (full.ShapeOk ∧ full.keyTaps ≠ 0 ∧ full.idxLen.toNat = full.groups ∧ IsPerm (full.indices full.groups) full.groups) := by
  decide +kernel

/-- TapMaskIsSizeBitsOfOnes and LfsrStepShiftsInTheTapParity: the vectors' taps, and a state of 17 bits. -/
theorem test_witness_LfsrStepShiftsInTheTapParity :
    HighestSetBit 0x16800 16 ∧ (0x1FFFF : Word).toNat < 2 ^ (16 + 1) :=
  ⟨highestSetBit_of _ 16 (by decide +kernel), by decide⟩

/-- The same mask, for TapMaskIsSizeBitsOfOnes. -/
theorem test_witness_TapMaskIsSizeBitsOfOnes : HighestSetBit 0x80000000 31 ∧ HighestSetBit 0x00000001 0 :=
  ⟨highestSetBit_of _ 31 (by decide +kernel), highestSetBit_of _ 0 (by decide +kernel)⟩

/-- StreamDependsOnSizeBitsOnly: a tap mask and a length of its first clause, a state of its last. -/
theorem test_witness_StreamDependsOnSizeBitsOnly : (0x16800 : Word) ≠ 0 ∧ 1 ≤ 1 ∧ (1 : Word).toNat < 2 := by decide

/-- KeystreamIsPackedMsbFirst: the last bit of one byte. -/
theorem test_witness_KeystreamIsPackedMsbFirst : 7 < 8 * 1 := by decide

/-- DistinctStatesGiveDistinctStreams: W4's two states; and the default constant. -/
theorem test_witness_DistinctStatesGiveDistinctStreams :
    HighestSetBit 0x16800 16 ∧ (0xACE1 : Word).toNat < 2 ^ (16 + 1) ∧ (0x10944 : Word).toNat < 2 ^ (16 + 1) ∧
    (0xACE1 : Word) ≠ 0x10944 ∧ full.params.diffSeedXor = 0x00A5A5A5 :=
  ⟨highestSetBit_of _ 16 (by decide +kernel), by decide, by decide, by decide, rfl⟩

/-- QuotientIsTheNearestBinary64: both ends of the range. -/
theorem test_witness_QuotientIsTheNearestBinary64 : (1 ≤ 1 ∧ 1 ≤ 254) ∧ (1 ≤ 254 ∧ 254 ≤ 254) := by decide

/-- RoundingIsToNearestTiesToEven: where the two clauses meet, and a tie. -/
theorem test_witness_RoundingIsToNearestTiesToEven :
    2 ^ 53 - 1 < 2 ^ 53 ∧ 2 ^ 53 ≤ 2 ^ 53 + 1 ∧ round53 (2 ^ 53 + 1) = (2 ^ 52, 1) ∧ round53 (2 ^ 53 + 3) = (2 ^ 52 + 2, 1) := by
  decide +kernel

/-- SwapPartnerIsInRange and BinaryIndexIsExactOrOneLess: the corners of the ranges, and a pair on which the modes differ. -/
theorem test_witness_SwapPartnerIsInRange :
    (0 ≤ 255 ∧ 1 ≤ 1 ∧ 1 < 2 ^ 22) ∧ (255 ≤ 255 ∧ 1 ≤ 2 ^ 22 - 1 ∧ 2 ^ 22 - 1 < 2 ^ 22) := by decide

theorem test_witness_BinaryIndexIsExactOrOneLess :
    (155 ≤ 255 ∧ 1 ≤ 51 ∧ 51 < 2 ^ 22) ∧ permIndex .binary64 155 51 + 1 = permIndex .exact 155 51 ∧
    permIndex .binary64 255 (2 ^ 22 - 1) = permIndex .exact 255 (2 ^ 22 - 1) ∧
    quotient255 155 = (0x13737373737373, 53) ∧ (round53 (0x13737373737373 * 51)).2 = 5 := by decide +kernel

/-- ShuffleDrawsAPermutation: both ends of the range, and the one draw of n = 2. -/
theorem test_witness_ShuffleDrawsAPermutation :
    (1 ≤ 1 ∧ 1 ≤ 2 ^ 22) ∧ (1 ≤ 2 ^ 22 ∧ 2 ^ 22 ≤ 2 ^ 22) ∧ (0 < 2 - 1 ∧ 1 = 2 - 1 - 0) := by decide

/-- OneGroupIsNotDiffused. -/
theorem test_witness_OneGroupIsNotDiffused :
    { full with height := 1, width := 1 }.height = 1 ∧ { full with height := 1, width := 1 }.width = 1 ∧
    ({ full with height := 1, width := 1 }.unit .u0).actTaps ≠ 0 ∧ { full with height := 1, width := 1 }.keyTaps ≠ 0 := by
  decide +kernel

/-- ConfuseTwiceRestoresTheBuffer: and the second state may be the first's answer itself. -/
theorem test_witness_ConfuseTwiceRestoresTheBuffer :
    full.ShapeOk ∧ 1 ≤ full.ksLen.toNat ∧ full.ksLen.toNat ≤ full.params.ksMax ∧
    after (exec .confuse full) (fun t => t.ksLen) = some full.ksLen := by decide +kernel

/-- UndiffuseInvertsDiffuse: and IDX_LEN is then n. -/
theorem test_witness_UndiffuseInvertsDiffuse :
    full.ShapeOk ∧ (full.unit .u0).actTaps ≠ 0 ∧ after (exec (.diffuse .u0) full) (fun t => t.idxLen) = some 16 := by
  decide +kernel

/-- DecryptInvertsEncrypt, EncryptEqualsItsPrimitives and DecryptEqualsItsPrimitives: 3n = KS_MAX. -/
theorem test_witness_DecryptInvertsEncrypt :
    full.ShapeOk ∧ full.keyTaps ≠ 0 ∧
    after (exec .encrypt full) (fun t => (t.keySeed, t.keyTaps)) = some (full.keySeed, full.keyTaps) := by decide +kernel

theorem test_witness_EncryptEqualsItsPrimitives :
    full.ShapeOk ∧ full.keyTaps ≠ 0 ∧ 3 * full.groups = full.params.ksMax := by decide +kernel

theorem test_witness_DecryptEqualsItsPrimitives :
    full.ShapeOk ∧ full.keyTaps ≠ 0 ∧ 3 * full.groups = full.params.ksMax ∧ full.idxLen.toNat = full.groups ∧
    IsPerm (full.indices full.groups) full.groups := by decide +kernel

/-- CommandsStayInTheirWriteSet: an answer, with a byte and an entry at the write set's end. -/
theorem test_witness_CommandsStayInTheirWriteSet :
    after (exec .nop full) (fun t => t.err) = some .success ∧ full.pixWriteSet .encrypt ≤ 48 ∧ full.idxWriteSet .encrypt ≤ 16 ∧
    full.ksWriteSet (.lfsrGenks .u0) ≤ 48 ∧ Reg.bitOut ≠ .status ∧ Reg.bitOut ∉ regWriteSet .encrypt := by decide +kernel

/-- UnitsAreIndependent. -/
theorem test_witness_UnitsAreIndependent :
    LfsrUnit.u0 ≠ .u1 ∧ Instr.diffuse .u0 ∈ [Instr.lfsrSeed .u0, .lfsrStep .u0, .lfsrGenks .u0, .diffuse .u0] := by decide

/-- PipelineIsSelfContained. -/
theorem test_witness_PipelineIsSelfContained : Instr.decrypt = .encrypt ∨ Instr.decrypt = .decrypt := by decide

/-- ShapeMattersOnlyThroughItsProduct: 4 x 4 and 2 x 8; and 0 x 5 and 7 x 0. -/
theorem test_witness_ShapeMattersOnlyThroughItsProduct :
    (2 : Word).toNat * (8 : Word).toNat = full.groups ∧ (7 : Word).toNat * (0 : Word).toNat = (raster 0 5 []).groups := by
  decide +kernel

/-- ActiveTapsChangeOnlyBySeeding: a step that changes ACT_TAPS_1 by LFSR_SEED 1, and one that clears ACT_TAPS_0 by reset. -/
theorem test_witness_ActiveTapsChangeOnlyBySeeding :
    after (step { full with engine := .busy 0x101, unit1 := { seed := 1, taps := 3, actTaps := 0, state := 0 } })
      (fun t => (t.unit .u1).actTaps) = some 3 ∧
    after (step { full with inputs := [.reset] }) (fun t => (t.unit .u0).actTaps) = some 0 ∧
    (full.unit .u0).actTaps ≠ 0 := by decide +kernel

/-- The statements about an idle LICC and about a busy one, and a step. -/
theorem test_witness_ParameterRegistersReadTheConfiguration :
    full.isBusy = false ∧ after (step full) (fun t => t.params) = some full.params := by decide +kernel

theorem test_witness_WritableRegistersHoldWhatIsWritten : full.isBusy = false ∧ fresh.isBusy = false := by decide +kernel

/-- ReadOnlyAndReservedIgnoreWrites: BIT_OUT, and the last reserved offset, idle and busy. -/
theorem test_witness_ReadOnlyAndReservedIgnoreWrites :
    ([0x038, 0x0FC] : List BusAddr).all (fun a => decide (a.toNat < 0x100 ∧ a.toNat % 4 = 0 ∧
      a ∉ ([0x020, 0x024, 0x028, 0x02C, 0x030, 0x034, 0x040, 0x044, 0x050, 0x054, 0x060, 0x064] : List BusAddr))) = true ∧
    (0x0FC : BusAddr) ∉ ([0x000, 0x004, 0x008, 0x00C, 0x010, 0x038, 0x048, 0x04C, 0x058, 0x05C] : List BusAddr) ∧
    full.isBusy = false ∧ fullBusy.isBusy = true := by decide +kernel

theorem test_witness_CommandWriteIsAcceptedWhenIdle : full.isBusy = false ∧ fullBusy.isBusy = true := by decide +kernel

/-- UnreachableAddressesSetBusError: one address of each kind (MB-2), and a reachable neighbour of each. -/
theorem test_witness_UnreachableAddressesSetBusError :
    ([0x0000002, 0x0000100, 0x0FFFFFC, 0x1000030, 0x1FFFFFC, 0x2000040, 0x2FFFFFC, 0x3000030, 0x3FFFFFC] : List BusAddr).all
      (fun a => decide (Unreachable full.params a.toNat)) = true ∧
    ([0x00000FC, 0x1000000, 0x100002C, 0x2000000, 0x200003C, 0x3000000, 0x300002C] : List BusAddr).all
      (fun a => decide (¬ Unreachable full.params a.toNat)) = true := by decide +kernel

/-- ByteWindowsAreLittleEndian: the last words of PIXMEM and KSMEM. -/
theorem test_witness_ByteWindowsAreLittleEndian :
    full.isBusy = false ∧ 4 * 11 < 3 * full.params.maxGroups ∧ 4 * 11 < full.params.ksMax := by decide +kernel

/-- IndexWindowHoldsWholeWords: the last entry. -/
theorem test_witness_IndexWindowHoldsWholeWords : full.isBusy = false ∧ 15 < full.params.maxGroups := by decide +kernel

theorem test_witness_WritesWhileBusyAreDropped : fullBusy.isBusy = true := by decide +kernel

/-- The busy state meets the invariant. -/
theorem test_fullBusy_inv : StateInv fullBusy := by
  refine ⟨by decide +kernel, by decide +kernel, by decide +kernel, by decide +kernel, fun w h => ?_, by decide +kernel⟩
  cases h
  exact ⟨rfl, rfl⟩

/-- StatusHasItsFields: a state that meets the invariant and is busy. -/
theorem test_witness_StatusHasItsFields : StateInv fullBusy ∧ fullBusy.isBusy = true :=
  ⟨test_fullBusy_inv, by decide +kernel⟩

/-- ReadsOutsideTheWriteSetAreExact, its first clause: DECRYPT running. -/
theorem test_witness_ReadsOutsideTheWriteSetAreExact_running : StateInv fullBusy ∧ fullBusy.engine = .busy 0x31 :=
  ⟨test_fullBusy_inv, by decide +kernel⟩

/-- ReadsOutsideTheWriteSetAreExact: a register, and with LFSR_GENKS 0 running an entry and a byte of each window. -/
theorem test_witness_ReadsOutsideTheWriteSetAreExact :
    (0x034, Reg.idxLen) ∈ regMap ∧ Reg.idxLen ∉ (fullBusy.running.map regWriteSet).getD [] ∧
    (15 < fullBusy.params.maxGroups ∧ fullBusy.idxBusy ≤ 15) ∧
    ({ fullBusy with engine := .busy 3 }.pixBusy ≤ 4 * 11 + 3 ∧ 4 * 11 < 3 * fullBusy.params.maxGroups) ∧
    (4 * 11 < fullBusy.params.ksMax ∧ fullBusy.ksBusy ≤ 4 * 11 + 3) := by decide +kernel

theorem test_witness_HostCannotDisturbARunningCommand : fullBusy.isBusy = true := by decide +kernel

/-- ResetClearsRegistersAndKeepsMemory: an idle state, a busy one with a byte at its write set's end, and an illegal word
pending. -/
theorem test_witness_ResetClearsRegistersAndKeepsMemory :
    full.engine = .idle ∧ fullBusy.engine = .busy 0x31 ∧ decode 0x31 = .command .decrypt ∧
    fullBusy.pixWriteSet .decrypt = 48 ∧ fullBusy.idxWriteSet .decrypt = 0 ∧ fullBusy.ksWriteSet .decrypt = 0 ∧
    { full with engine := .busy 0x100 }.engine = .busy 0x100 ∧ decode 0x100 = .illegal .unitBitSet := by
  decide +kernel

/-- EveryStepKeepsTheInvariant: the busy state meets the invariant, and has a next state. -/
theorem test_witness_EveryStepKeepsTheInvariant :
    StateInv fullBusy ∧ after (step fullBusy) (fun t => t.err) = some .success :=
  ⟨test_fullBusy_inv, by decide +kernel⟩

/-- ViolationIsNeverCleared: across a reset, and across the write that clears OVERRUN. -/
theorem test_witness_ViolationIsNeverCleared :
    after (step { full with violation := true, inputs := [.reset] }) (fun t => t.violation) = some true ∧
    after (step { full with violation := true, overrun := true, inputs := [.host (.write 0x024 0x100)] })
      (fun t => (t.overrun, t.violation)) = some (false, true) := by decide +kernel

end Sys2Proof.Tests
end

section
/-! PROOF. What one step can make of the state: the step by its next input, the engine's turn by the shape of the command
that completes, a host transaction by its target; and the statements about the step and the registers of 10_state. -/

namespace Sys2Proof.Machine

variable {s t : State}

/-! ### The step, by its next input -/

theorem step_nil (h : s.inputs = []) : step s = engineTurn s := by simp only [step, h]

theorem step_engine {rest : List Input} (h : s.inputs = .engine :: rest) :
    step s = engineTurn { s with inputs := rest } := by simp only [step, h]

theorem step_host {x : HostTxn} {rest : List Input} (h : s.inputs = .host x :: rest) :
    step s = .next (hostTransaction x { s with inputs := rest }) := by simp only [step, h]

theorem step_reset {rest : List Input} (h : s.inputs = .reset :: rest) :
    step s = .next (applyReset { s with inputs := rest }) := by simp only [step, h]

theorem engineTurn_idle (h : s.engine = .idle) : engineTurn s = .next s := by simp only [engineTurn, h]

theorem engineTurn_command {w : Word} {i : Instr} (h : s.engine = .busy w) (hd : decode w = .command i) :
    engineTurn s = exec i s := by simp only [engineTurn, h, hd]

/-- It is the engine's turn: no input is waiting, or the engine is named next. -/
abbrev State.EngineTurn (s : State) : Prop := s.inputs = [] ∨ ∃ rest, s.inputs = .engine :: rest

/-- On the engine's turn the step is the engine's, the turn taken off the inputs. -/
theorem step_of_engineTurn (h : s.EngineTurn) : step s = engineTurn { s with inputs := s.inputs.tail } := by
  obtain h | ⟨rest, h⟩ := h
  · have hs : { s with inputs := s.inputs.tail } = s := by rw [h, List.tail_nil, ← h]
    rw [step_nil h, hs]
  · rw [step_engine h, h, List.tail_cons]

/-- Where a step's answer comes from: the engine's turn, a host transaction, or a reset. -/
theorem step_next_cases (h : step s = .next t) :
    (s.EngineTurn ∧ engineTurn { s with inputs := s.inputs.tail } = .next t) ∨
    (∃ x rest, s.inputs = .host x :: rest ∧ t = hostTransaction x { s with inputs := rest }) ∨
    (∃ rest, s.inputs = .reset :: rest ∧ t = applyReset { s with inputs := rest }) := by
  obtain ⟨hi, -⟩ | ⟨rest, hi, -⟩ | ⟨x, rest, hi, hs⟩ | ⟨rest, hi, hs⟩ := step_cases s
  · exact .inl ⟨.inl hi, (step_of_engineTurn (.inl hi)).symm.trans h⟩
  · exact .inl ⟨.inr ⟨rest, hi⟩, (step_of_engineTurn (.inr ⟨rest, hi⟩)).symm.trans h⟩
  · exact .inr (.inl ⟨x, rest, hi, Host.Outcome.next.inj (h.symm.trans hs)⟩)
  · exact .inr (.inr ⟨rest, hi, Host.Outcome.next.inj (h.symm.trans hs)⟩)

/-! ### The engine's turn, by what the command did -/

theorem exec_next_did {i : Instr} (h : exec i s = .next t) : Did s i t := by
  obtain ⟨t', ht', hd⟩ := exec_did i s
  exact Host.Outcome.next.inj (ht'.symm.trans h) ▸ hd

/-- What the engine's turn leaves: the state itself, a completed command's, or an illegal word's. -/
theorem engineTurn_next_cases (h : engineTurn s = .next t) :
    (s.engine = .idle ∧ t = s) ∨
    (∃ w i, s.engine = .busy w ∧ decode w = .command i ∧ Did s i t) ∨
    (∃ w why, s.engine = .busy w ∧ decode w = .illegal why ∧ t = s.finish .illegalCommand) := by
  obtain ⟨he, hs⟩ | ⟨w, i, he, hd, hs⟩ | ⟨w, why, he, hd, hs⟩ := engineTurn_cases s
  · exact .inl ⟨he, Host.Outcome.next.inj (h.symm.trans hs)⟩
  · exact .inr (.inl ⟨w, i, he, hd, exec_next_did (hs.symm.trans h)⟩)
  · exact .inr (.inr ⟨w, why, he, hd, Host.Outcome.next.inj (h.symm.trans hs)⟩)

/-- The engine's turn always answers a next state. -/
theorem engineTurn_total (s : State) : ∃ t, engineTurn s = .next t := by
  obtain ⟨-, hs⟩ | ⟨w, i, -, -, hs⟩ | ⟨w, why, -, -, hs⟩ := engineTurn_cases s
  · exact ⟨_, hs⟩
  · obtain ⟨t, ht, -⟩ := exec_did i s
    exact ⟨t, hs.trans ht⟩
  · exact ⟨_, hs⟩

theorem Did.engine_eq {i : Instr} (h : Did s i t) : t.engine = .idle := by
  cases h <;> rfl

theorem Did.params_eq {i : Instr} (h : Did s i t) : t.params = s.params := by
  cases h <;> simp

theorem State.unit_setUnit_eq (s : State) (u v : LfsrUnit) (r : LfsrRegs) :
    (s.setUnit v r).unit u = if u = v then r else s.unit u := by
  split
  · subst u; exact s.unit_setUnit v r
  · exact s.unit_setUnit_of_ne r (Ne.symm ‹_›)

/-- A command leaves ACT_TAPS_u, or is LFSR_SEED u and takes it from TAPS_u (10_state R48). -/
theorem Did.actTaps_cases {i : Instr} (u : LfsrUnit) (h : Did s i t) :
    (t.unit u).actTaps = (s.unit u).actTaps ∨ (i = .lfsrSeed u ∧ (t.unit u).actTaps = (s.unit u).taps) := by
  cases h with
  | seeded v _ =>
    by_cases hv : u = v
    · subst hv; simp
    · simp [State.unit_setUnit_eq, hv]
  | stepped v _ | generated v _ _ | diffused v _ _ =>
    by_cases hv : u = v
    · subst hv; simp
    · simp [State.unit_setUnit_eq, hv]
  | ended | rewrote | encrypted => simp

/-- After its turn the engine is IDLE (10_state R58). -/
theorem engineTurn_engine (h : engineTurn s = .next t) : t.engine = .idle := by
  obtain ⟨he, rfl⟩ | ⟨w, i, -, -, hd⟩ | ⟨w, why, -, -, rfl⟩ := engineTurn_next_cases h
  · exact he
  · exact hd.engine_eq
  · rfl

theorem engineTurn_params (h : engineTurn s = .next t) : t.params = s.params := by
  obtain ⟨-, rfl⟩ | ⟨w, i, -, -, hd⟩ | ⟨w, why, -, -, rfl⟩ := engineTurn_next_cases h
  · rfl
  · exact hd.params_eq
  · rfl

/-! ### A host transaction, by its target -/

/-- A host transaction either is a write while IDLE, which goes to its target, or changes no more than the sticky bits, the
violation mark and the model's own port fields. -/
theorem hostTransaction_cases (x : HostTxn) (s : State) :
    (∃ a v, x = .write a v ∧ s.isBusy = false ∧
      hostTransaction x s = s.writeTarget v (busTarget s.params a.toNat)) ∨
    hostTransaction x s =
      { s with
        overrun := (hostTransaction x s).overrun
        buserr := (hostTransaction x s).buserr
        violation := (hostTransaction x s).violation
        lastRead := (hostTransaction x s).lastRead
        draws := (hostTransaction x s).draws } := by
  cases hb : s.isBusy with
  | true => exact .inr (hostTransaction_busy x s hb)
  | false =>
    cases x with
    | read a =>
      refine .inr ?_
      rw [show hostTransaction (.read a) s = hostRead a s from rfl, hostRead_frame]
    | write a v => exact .inl ⟨a, v, rfl, rfl, hostWrite_idle a v s hb⟩

theorem State.writeTarget_params (s : State) (v : Word) (g : Target) : (s.writeTarget v g).params = s.params := by
  cases g with
  | reg r => cases r <;> simp [State.writeTarget, State.writeReg]
  | _ => rfl

/-- A write while IDLE moves the engine only at CMD (10_state R35). -/
theorem State.writeTarget_engine (s : State) (v : Word) (g : Target) :
    (s.writeTarget v g).engine = if g = .reg .cmd then .busy v else s.engine := by
  cases g with
  | reg r => cases r <;> simp [State.writeTarget, State.writeReg]
  | _ => rfl

/-- No host write reaches ACT_TAPS_u (10_state R48). -/
theorem State.writeTarget_actTaps (s : State) (v : Word) (g : Target) (u : LfsrUnit) :
    ((s.writeTarget v g).unit u).actTaps = (s.unit u).actTaps := by
  cases g with
  | reg r =>
    cases r with
    | seed q | taps q => cases q <;> cases u <;> rfl
    | _ => cases u <;> rfl
  | _ => cases u <;> rfl

theorem hostTransaction_params (x : HostTxn) (s : State) : (hostTransaction x s).params = s.params := by
  obtain ⟨a, v, -, -, h⟩ | h := hostTransaction_cases x s <;> rw [h]
  exact s.writeTarget_params v _

theorem hostTransaction_actTaps (x : HostTxn) (s : State) (u : LfsrUnit) :
    ((hostTransaction x s).unit u).actTaps = (s.unit u).actTaps := by
  obtain ⟨a, v, -, -, h⟩ | h := hostTransaction_cases x s <;> rw [h]
  · exact s.writeTarget_actTaps v _ u
  · cases u <;> rfl

/-- CMD stands at offset 0x020 alone (10_state R34). -/
theorem busTarget_eq_cmd {p : Params} {a : BusAddr} (h : busTarget p a.toNat = .reg .cmd) : a = 0x020 := by
  have hm := busTarget_eq_reg h
  have ha : a.toNat = 0x020 := by simpa [regMap] using hm
  exact BitVec.eq_of_toNat_eq ha

/-- The host moves the engine only by an accepted CMD write (10_state R37). -/
theorem hostTransaction_engine (x : HostTxn) (s : State) :
    (hostTransaction x s).engine = s.engine ∨
    ∃ v, x = .write 0x020 v ∧ (hostTransaction x s).engine = .busy v := by
  obtain ⟨a, v, rfl, -, h⟩ | h := hostTransaction_cases x s
  · rw [h, State.writeTarget_engine]
    split
    next hg => exact .inr ⟨v, congrArg (HostTxn.write · v) (busTarget_eq_cmd hg), rfl⟩
    next => exact .inl rfl
  · rw [h]
    exact .inl rfl

/-- No step changes the configuration (10_state R33). -/
theorem step_params (h : step s = .next t) : t.params = s.params := by
  obtain ⟨-, h⟩ | ⟨x, rest, -, rfl⟩ | ⟨rest, -, rfl⟩ := step_next_cases h
  · exact (engineTurn_params h :)
  · exact hostTransaction_params x _
  · rfl

/-! ### The statements about the step -/

/-- Settles O5: the engine's turn in each of its two forms, by the equations of step and engineTurn. -/
theorem stepRunsTheDecodedCommand : Obligations.StepRunsTheDecodedCommand := by
  intro s w i he hd
  exact ⟨fun h => (step_nil h).trans (engineTurn_command he hd),
    fun rest h => (step_engine h).trans (engineTurn_command he hd)⟩

/-- Settles O7: one equation of step for each form of the inputs. -/
theorem stepFollowsItsInputs : Obligations.StepFollowsItsInputs := by
  intro s
  exact ⟨fun he h => (step_nil h).trans (engineTurn_idle he),
    fun rest he h => (step_engine h).trans (engineTurn_idle he),
    fun x rest h => step_host h, fun rest h => step_reset h⟩

/-- Settles O9: the engine's turn and a reset end IDLE, and a host transaction moves the engine only at CMD. -/
theorem busyChangesOnlyAtAcceptanceAndCompletion : Obligations.BusyChangesOnlyAtAcceptanceAndCompletion := by
  refine ⟨fun s t h hs ht => ?_, fun s t h hs ht => ?_, fun s h => ?_⟩
  · obtain ⟨w, hw⟩ := t.isBusy_iff.1 ht
    rw [State.isBusy_eq_false_iff] at hs
    obtain ⟨-, h⟩ | ⟨x, rest, hi, rfl⟩ | ⟨rest, -, rfl⟩ := step_next_cases h
    · cases hw.symm.trans (engineTurn_engine h)
    · obtain he | ⟨v, rfl, he⟩ := hostTransaction_engine x { s with inputs := rest }
      · cases hw.symm.trans (he.trans hs)
      · exact ⟨v, rest, hi, he⟩
    · cases hw
  · obtain ⟨w, hw⟩ := s.isBusy_iff.1 hs
    rw [State.isBusy_eq_false_iff] at ht
    obtain ⟨hi | hi, -⟩ | ⟨x, rest, -, rfl⟩ | ⟨rest, hi, -⟩ := step_next_cases h
    · exact .inl hi
    · exact .inr (.inl hi)
    · obtain he | ⟨v, -, he⟩ := hostTransaction_engine x { s with inputs := rest }
      · cases ht.symm.trans (he.trans hw)
      · cases ht.symm.trans he
    · exact .inr (.inr ⟨rest, hi⟩)
  · obtain ⟨t, ht⟩ := engineTurn_total { s with inputs := s.inputs.tail }
    exact ⟨t, (step_of_engineTurn h).trans ht, t.isBusy_eq_false_iff.2 (engineTurn_engine ht)⟩

/-- Settles O43: of the commands only LFSR_SEED u reaches ACT_TAPS_u, no host write does, and a reset clears it. -/
theorem activeTapsChangeOnlyBySeeding : Obligations.ActiveTapsChangeOnlyBySeeding := by
  intro u s t h hne
  obtain ⟨-, h⟩ | ⟨x, rest, -, rfl⟩ | ⟨rest, hi, rfl⟩ := step_next_cases h
  · obtain ⟨-, rfl⟩ | ⟨w, i, he, hd, hdid⟩ | ⟨w, why, -, -, rfl⟩ := engineTurn_next_cases h
    · exact absurd rfl hne
    · obtain hsame | ⟨rfl, htaps⟩ := hdid.actTaps_cases u
      · exact absurd hsame hne
      · exact .inl ⟨w, he, hd, htaps⟩
    · exact absurd rfl hne
  · exact absurd (hostTransaction_actTaps x _ u) hne
  · exact .inr ⟨rest, hi, by cases u <;> rfl⟩

end Sys2Proof.Machine
end

section
/-! PROOF. The register map as the host sees it: one reading rule and one writing rule for a register at its offset, and the
statements about the registers of 10_state. -/

namespace Sys2Proof.Machine

variable {s : State} {a : BusAddr} {r : Reg}

/-! ### A register at its offset -/

/-- The registers some command writes (the Writes lines of 40_lfsr R136 to R138, 42_diffusion R184, 43_pipeline R211). -/
abbrev resultRegs : List Reg := [.idxLen, .bitOut, .actTaps .u0, .actTaps .u1, .state .u0, .state .u1]

theorem mem_resultRegs {i : Instr} (h : r ∈ regWriteSet i) : r ∈ resultRegs := by
  cases i with
  | lfsrSeed u | lfsrStep u | lfsrGenks u | diffuse u =>
    cases u <;> revert r <;> simp [regWriteSet]
  | encrypt => simp_all [regWriteSet]
  | nop | confuse | undiffuse | decrypt => simp [regWriteSet] at h

/-- A register that no command writes is never in the running command's write set. -/
theorem State.regBusy_eq_false (s : State) (hr : r ∉ resultRegs) : s.regBusy r = false := by
  unfold State.regBusy
  cases s.running with
  | none => rfl
  | some i => simpa using fun h => hr (mem_resultRegs h)

theorem State.regBusy_of_idle (h : s.isBusy = false) : s.regBusy r = false := by
  rw [State.isBusy_eq_false_iff] at h
  simp [State.regBusy, State.running, h]

/-- A register outside the running command's write set reads as what it holds (70_reset R281). -/
theorem hostRead_reg (hm : (a.toNat, r) ∈ regMap) (hb : s.regBusy r = false) :
    hostRead a s = { s with lastRead := s.readReg r, draws := if s.isBusy then s.draws + 1 else s.draws } := by
  have ht := busTarget_reg s.params hm
  rw [hostRead_of_ne a s (by simp [ht]), ht]
  simp [State.readTarget, hb]

/-- The same for a register no command writes, busy or not: what the port holds after the read. -/
theorem hostRead_reg_lastRead (hm : (a.toNat, r) ∈ regMap) (hr : r ∉ resultRegs) :
    (hostRead a s).lastRead = s.readReg r := by
  rw [hostRead_reg hm (s.regBusy_eq_false hr)]

/-- While IDLE every register reads as what it holds, and only the port changes. -/
theorem hostRead_reg_idle (hm : (a.toNat, r) ∈ regMap) (h : s.isBusy = false) :
    hostRead a s = { s with lastRead := s.readReg r } := by
  rw [hostRead_reg hm (State.regBusy_of_idle h), h]
  rfl

/-- While IDLE a register takes a write at its offset. -/
theorem hostWrite_reg_idle (v : Word) (hm : (a.toNat, r) ∈ regMap) (h : s.isBusy = false) :
    hostWrite a v s = s.writeReg v r := by
  rw [hostWrite_idle a v s h, busTarget_reg s.params hm]
  rfl

/-- A write that reaches something, other than STATUS, is dropped while BUSY (70_reset R283). -/
theorem hostWrite_busy_dropped {g : Target} (v : Word) (h : s.isBusy = true) (ht : busTarget s.params a.toNat = g)
    (h1 : g ≠ .busError) (h2 : g ≠ .reg .status) : hostWrite a v s = s.noteOverrun := by
  rw [hostWrite_busy a v s h, ht, if_neg h1, if_neg h2]

/-- A write to STATUS takes effect busy or not (10_state R36, 70_reset R283). -/
theorem hostWrite_status (v : Word) (s : State) : hostWrite 0x024 v s = s.clearSticky v := by
  cases h : s.isBusy with
  | false => exact hostWrite_reg_idle (r := .status) v (by decide) h
  | true =>
    have ht : busTarget s.params (0x024 : BusAddr).toNat = .reg .status := busTarget_reg s.params (by decide)
    rw [hostWrite_busy _ v s h, ht]
    rfl

/-- What an RW register holds after a write is what the next read of it returns. -/
theorem hostRead_hostWrite_idle (v : Word) (hm : (a.toNat, r) ∈ regMap) (h : s.isBusy = false)
    (hb : (s.writeReg v r).isBusy = false) (hv : (s.writeReg v r).readReg r = v) :
    hostRead a (hostWrite a v s) = { hostWrite a v s with lastRead := v } := by
  rw [hostWrite_reg_idle v hm h, hostRead_reg_idle hm hb, hv]

/-! ### The fields of STATUS -/

theorem bitWord_getLsbD (b : Bool) (k : Nat) : (bitWord b).getLsbD k = (decide (k = 0) && b) := by
  cases k <;> simp [bitWord, BitVec.getLsbD_setWidth]

/-- STATUS bit by bit (10_state R36). -/
theorem State.statusWord_getLsbD (s : State) (k : Nat) (hk : k < 32) :
    s.statusWord.getLsbD k =
      if k = 0 then s.isBusy else if k < 4 then false else if k < 8 then s.err.code.getLsbD (k - 4)
      else if k = 8 then s.overrun else if k = 9 then s.buserr else false := by
  have hc : ∀ j, 4 ≤ j → s.err.code.getLsbD j = false := fun j hj => BitVec.getLsbD_of_ge _ j hj
  simp only [State.statusWord, BitVec.getLsbD_or, BitVec.getLsbD_shiftLeft, bitWord_getLsbD, BitVec.getLsbD_setWidth, hk,
    decide_true, Bool.true_and]
  split_ifs with h0 h4 h8 h8' h9
  · simp [h0]
  · simp [h0, h4, show k < 8 by omega, show k < 9 by omega]
  · simp [h0, h4, h8, show k < 9 by omega, show k - 4 < 32 by omega]
  · simp [h8']
  · simp [h9]
  · simp [h0, h8, hc (k - 4) (by omega), show k - 8 ≠ 0 by omega, show k - 9 ≠ 0 by omega]

theorem State.statusWord_low (s : State) : s.statusWord.extractLsb' 1 3 = 0 := by
  apply BitVec.eq_of_getLsbD_eq
  intro j hj
  rw [BitVec.getLsbD_extractLsb', s.statusWord_getLsbD _ (by omega)]
  simp [show 1 + j < 4 by omega]

theorem State.statusWord_err (s : State) : s.statusWord.extractLsb' 4 4 = s.err.code := by
  apply BitVec.eq_of_getLsbD_eq
  intro j hj
  rw [BitVec.getLsbD_extractLsb', s.statusWord_getLsbD _ (by omega)]
  simp [hj, show 4 + j < 8 by omega]

theorem State.statusWord_high (s : State) : s.statusWord.extractLsb' 10 22 = 0 := by
  apply BitVec.eq_of_getLsbD_eq
  intro j hj
  rw [BitVec.getLsbD_extractLsb', s.statusWord_getLsbD _ (by omega)]
  simp [show ¬ 10 + j < 4 by omega, show ¬ 10 + j < 8 by omega, show 10 + j ≠ 8 by omega, show 10 + j ≠ 9 by omega]

/-! ### The statements about the registers -/

/-- Settles O45: the writing rule at each offset, and the reading rule after it. -/
theorem writableRegistersHoldWhatIsWritten : Obligations.WritableRegistersHoldWhatIsWritten := by
  intro s v h
  refine ⟨hostWrite_reg_idle (r := .height) v (by decide) h, hostWrite_reg_idle (r := .width) v (by decide) h,
    hostWrite_reg_idle (r := .ksLen) v (by decide) h, hostWrite_reg_idle (r := .idxLen) v (by decide) h,
    hostWrite_reg_idle (r := .seed .u0) v (by decide) h, hostWrite_reg_idle (r := .taps .u0) v (by decide) h,
    hostWrite_reg_idle (r := .seed .u1) v (by decide) h, hostWrite_reg_idle (r := .taps .u1) v (by decide) h,
    hostWrite_reg_idle (r := .keySeed) v (by decide) h, hostWrite_reg_idle (r := .keyTaps) v (by decide) h, ?_⟩
  simp only [List.forall_mem_cons]
  exact ⟨hostRead_hostWrite_idle (r := .height) v (by decide) h h rfl,
    hostRead_hostWrite_idle (r := .width) v (by decide) h h rfl,
    hostRead_hostWrite_idle (r := .ksLen) v (by decide) h h rfl,
    hostRead_hostWrite_idle (r := .idxLen) v (by decide) h h rfl,
    hostRead_hostWrite_idle (r := .seed .u0) v (by decide) h h rfl,
    hostRead_hostWrite_idle (r := .taps .u0) v (by decide) h h rfl,
    hostRead_hostWrite_idle (r := .seed .u1) v (by decide) h h rfl,
    hostRead_hostWrite_idle (r := .taps .u1) v (by decide) h h rfl,
    hostRead_hostWrite_idle (r := .keySeed) v (by decide) h h rfl,
    hostRead_hostWrite_idle (r := .keyTaps) v (by decide) h h rfl, by simp⟩

/-- Settles O47: CMD is a register of the map that no command writes. -/
theorem commandWriteIsAcceptedWhenIdle : Obligations.CommandWriteIsAcceptedWhenIdle := by
  intro s v
  exact ⟨hostWrite_reg_idle (r := .cmd) v (by decide),
    fun h => hostWrite_busy_dropped v h (busTarget_reg (r := .cmd) s.params (by decide)) (by decide) (by decide),
    hostRead_reg_lastRead (r := .cmd) (by decide) (by decide),
    hostRead_reg_lastRead (r := .cmd) (by decide) (by decide)⟩

/-- Settles O48: STATUS read bit by bit, the invariant for ERR while BUSY, and the one rule for a write to it. -/
theorem statusHasItsFields : Obligations.StatusHasItsFields := by
  refine ⟨⟨rfl, rfl, rfl, rfl, rfl, rfl⟩, hostRead_reg_lastRead (r := .status) (by decide) (by decide),
    fun s v => ⟨⟨s.statusWord, hostRead_reg_lastRead (r := .status) (by decide) (by decide),
      s.statusWord_getLsbD 0 (by decide), s.statusWord_low, s.statusWord_err, s.statusWord_getLsbD 8 (by decide),
      s.statusWord_getLsbD 9 (by decide), s.statusWord_high, fun hinv hb => ?_⟩, hostWrite_status v s⟩⟩
  obtain ⟨w, hw⟩ := s.isBusy_iff.1 hb
  rw [s.statusWord_err, (hinv.busy w hw).2]
  rfl

/-- The offsets of the register map whose writes do something (10_state R34). -/
abbrev writableOffsets : List BusAddr :=
  [0x020, 0x024, 0x028, 0x02C, 0x030, 0x034, 0x040, 0x044, 0x050, 0x054, 0x060, 0x064]

/-- The offsets of the read-only registers (10_state R34, R52). -/
abbrev readOnlyOffsets : List BusAddr :=
  [0x000, 0x004, 0x008, 0x00C, 0x010, 0x038, 0x048, 0x04C, 0x058, 0x05C]

/-- The read-only registers (10_state R34, R52). -/
abbrev readOnlyRegs : List Reg :=
  [.id, .maxGroups, .ksMax, .features, .diffXor, .bitOut, .actTaps .u0, .state .u0, .actTaps .u1, .state .u1]

theorem regMap_writable_or_readOnly : ∀ x ∈ regMap,
    BitVec.ofNat 26 x.1 ∈ writableOffsets ∨ (BitVec.ofNat 26 x.1 ∈ readOnlyOffsets ∧ x.2 ∈ readOnlyRegs) := by decide

theorem State.writeReg_readOnly (s : State) (v : Word) : ∀ r ∈ readOnlyRegs, s.writeReg v r = s ∧ r ≠ .status := by
  simp [State.writeReg]

/-- A register at an offset outside the writable ones is read-only. -/
theorem regMap_readOnly (hm : (a.toNat, r) ∈ regMap) (hw : a ∉ writableOffsets) :
    a ∈ readOnlyOffsets ∧ r ∈ readOnlyRegs := by
  have h := regMap_writable_or_readOnly _ hm
  rw [BitVec.ofNat_toNat, BitVec.setWidth_eq] at h
  exact h.resolve_left hw

/-- An aligned offset of the register window reaches a register of the map or is reserved (10_state R34, R51). -/
theorem busTarget_window_cases (p : Params) {k : Nat} (h4 : k % 4 = 0) (hlt : k < 0x100) :
    (∃ r, (k, r) ∈ regMap ∧ busTarget p k = .reg r) ∨ busTarget p k = .reserved := by
  rw [busTarget_window p h4 hlt]
  cases hl : regMap.lookup k with
  | none => exact .inr rfl
  | some r =>
    obtain ⟨l₁, l₂, he, -⟩ := List.lookup_eq_some_iff.1 hl
    exact .inl ⟨r, by simp [he], rfl⟩

/-- Settles O46: an aligned offset outside the writable ones reaches a register that ignores writes, or nothing. -/
theorem readOnlyAndReservedIgnoreWrites : Obligations.ReadOnlyAndReservedIgnoreWrites := by
  intro s a v hlt h4 hw
  obtain ⟨r, hm, ht⟩ | ht := busTarget_window_cases s.params h4 hlt
  · obtain ⟨ha, hr⟩ := regMap_readOnly hm hw
    obtain ⟨hsame, hne⟩ := s.writeReg_readOnly v r hr
    exact ⟨fun hb => (hostWrite_reg_idle v hm hb).trans hsame,
      fun hb => hostWrite_busy_dropped v hb ht (by simp) (by simpa using hne),
      fun hna => absurd ha hna⟩
  · refine ⟨fun hb => ?_, fun hb => hostWrite_busy_dropped v hb ht (by decide) (by decide), fun _ => ?_⟩
    · rw [hostWrite_idle a v s hb, ht]
      rfl
    · rw [hostRead_of_ne a s (by simp [ht]), ht]
      rfl

/-- FEATURES reads 1 in mode EXACT and 0 in mode BINARY64 (10_state R33). -/
theorem bitWord_mode_bit (m : PermIndexMode) : bitWord (PermIndexMode.bit m) = if m = .exact then 1 else 0 := by
  cases m <;> rfl

/-- Settles O44: the reading and writing rules at the five offsets, and no step changes the configuration. -/
theorem parameterRegistersReadTheConfiguration : Obligations.ParameterRegistersReadTheConfiguration := by
  intro s v
  refine ⟨hostRead_reg_lastRead (r := .id) (by decide) (by decide),
    hostRead_reg_lastRead (r := .maxGroups) (by decide) (by decide),
    hostRead_reg_lastRead (r := .ksMax) (by decide) (by decide),
    (hostRead_reg_lastRead (r := .features) (by decide) (by decide)).trans (bitWord_mode_bit _),
    hostRead_reg_lastRead (r := .diffXor) (by decide) (by decide), fun h => ?_, fun t => step_params⟩
  simp only [List.forall_mem_cons]
  exact ⟨hostWrite_reg_idle (r := .id) v (by decide) h, hostWrite_reg_idle (r := .maxGroups) v (by decide) h,
    hostWrite_reg_idle (r := .ksMax) v (by decide) h, hostWrite_reg_idle (r := .features) v (by decide) h,
    hostWrite_reg_idle (r := .diffXor) v (by decide) h, by simp⟩

/-- Settles O56: State.reset written out, field by field. -/
theorem resetLeavesTheResetValues : Obligations.ResetLeavesTheResetValues :=
  ⟨rfl, rfl, rfl, rfl, rfl, rfl, rfl, rfl, rfl, rfl, rfl, rfl, rfl, rfl, rfl, rfl, rfl, rfl, rfl⟩

end Sys2Proof.Machine
end

section
/-! PROOF. The invariant: one lemma for each named update of the state that keeps it, then for a completed command, a host
transaction and a reset, and so for every step. -/

namespace Sys2Proof

open Sys2Proof.Machine

variable {s t : State}

/-! ### The parts of the invariant -/

/-- A memory stays canonical and within its capacity when consecutive locations within it are written. -/
theorem memory_writeFrom_keeps {w n k : Nat} {m : Memory w} {vs : List (BitVec w)} (h : Memory.wf m ∧ Memory.below m n)
    (hk : k + vs.length ≤ n) : Memory.wf (Memory.writeFrom m k vs) ∧ Memory.below (Memory.writeFrom m k vs) n :=
  ⟨Memory.wf_writeFrom vs m k h.1, Memory.below_writeFrom vs m k n h.2 hk⟩

/-- A constructed unit meets 10_state R49 with any state that fits in size bits. -/
theorem unitOk_of_state_lt {r : LfsrRegs} {x t : Word} (ht : t ≠ 0) (hx : x.toNat < 2 ^ tapSize t) :
    UnitOk { r with actTaps := t, state := x } :=
  ⟨fun h => absurd h ht, fun _ => hx⟩

theorem StateInv.unitOk (h : StateInv s) (u : LfsrUnit) : UnitOk (s.unit u) := by
  cases u
  · exact h.units.1
  · exact h.units.2

/-- The state of a constructed unit fits in size bits. -/
theorem StateInv.unit_state_lt (h : StateInv s) {u : LfsrUnit} (ht : (s.unit u).actTaps ≠ 0) :
    (s.unit u).state.toNat < 2 ^ tapSize (s.unit u).actTaps := (h.unitOk u).2 ht

/-! ### The named updates -/

theorem StateInv.pixWrite (h : StateInv s) {k : Nat} {vs : List Byte} (hk : k + vs.length ≤ 3 * s.params.maxGroups) :
    StateInv (s.pixWrite k vs) := { h with pix := memory_writeFrom_keeps h.pix hk }

theorem StateInv.idxWrite (h : StateInv s) {g : Nat} {vs : List Word} (hg : g + vs.length ≤ s.params.maxGroups) :
    StateInv (s.idxWrite g vs) := { h with idx := memory_writeFrom_keeps h.idx hg }

theorem StateInv.ksWrite (h : StateInv s) {k : Nat} {vs : List Byte} (hk : k + vs.length ≤ s.params.ksMax) :
    StateInv (s.ksWrite k vs) := { h with ks := memory_writeFrom_keeps h.ks hk }

theorem StateInv.setUnit (h : StateInv s) {u : LfsrUnit} {r : LfsrRegs} (hr : UnitOk r) : StateInv (s.setUnit u r) := by
  cases u
  · exact { h with units := ⟨hr, h.units.2⟩ }
  · exact { h with units := ⟨h.units.1, hr⟩ }

theorem StateInv.setIdxLen (h : StateInv s) (v : Word) : StateInv (s.setIdxLen v) := { h with }

theorem StateInv.setBitOut (h : StateInv s) (f : Bool) : StateInv (s.setBitOut f) := { h with }

/-- Whatever ends a command leaves the engine IDLE, so nothing is asked of CMD and ERR. -/
theorem StateInv.finish (h : StateInv s) (e : ErrCode) : StateInv (s.finish e) :=
  { h with busy := fun _ hw => Engine.noConfusion hw }

theorem StateInv.accept (h : StateInv s) (w : Word) : StateInv (s.accept w) :=
  { h with busy := fun _ hw => ⟨Engine.busy.inj hw, rfl⟩ }

theorem StateInv.clearSticky (h : StateInv s) (v : Word) : StateInv (s.clearSticky v) :=
  { h with violation := fun hv => h.violation (hv.imp Bool.and_elim_left Bool.and_elim_left) }

theorem StateInv.noteOverrun (h : StateInv s) : StateInv s.noteOverrun := { h with violation := fun _ => rfl }

theorem StateInv.noteBusError (h : StateInv s) : StateInv s.noteBusError := { h with violation := fun _ => rfl }

/-! ### A completed command -/

theorem StateInv.did {i : Instr} (h : StateInv s) (hd : Did s i t) : StateInv t := by
  cases hd with
  | ended _ e => exact h.finish e
  | seeded u ht => exact (h.setUnit (unitOk_of_state_lt ht (toNat_and_tapMask_lt _ _))).finish _
  | stepped u ht => exact ((h.setUnit (unitOk_of_state_lt ht (lfsrStep_state_lt _ _))).setBitOut _).finish _
  | generated u ht hl =>
    exact ((h.ksWrite (by simpa using hl)).setUnit
      (unitOk_of_state_lt ht (lfsrBytes_state_lt _ _ _ (h.unit_state_lt ht)))).finish _
  | rewrote _ hi hs vs hv => exact (h.pixWrite (by omega)).finish _
  | diffused u hs ht =>
    have hp := h.pixWrite (k := 0) (vs := gather s.pixRead (s.unitShuffle u).1) (by simp; omega)
    have hi := hp.idxWrite (g := 0) (vs := indexWords (s.unitShuffle u).1) (by simpa using hs.2.2)
    exact ((hi.setIdxLen _).setUnit
      (unitOk_of_state_lt ht (shuffle_state_lt _ _ _ _ (h.unit_state_lt ht)))).finish _
  | encrypted hs vs hv ws hw =>
    have hp := h.pixWrite (k := 0) (vs := vs) (by omega)
    have hi := hp.idxWrite (g := 0) (vs := ws) (by simpa [hw] using hs.2.2)
    exact (hi.setIdxLen _).finish _

theorem StateInv.engineTurn (h : StateInv s) (ht : engineTurn s = .next t) : StateInv t := by
  obtain ⟨-, rfl⟩ | ⟨w, i, -, -, hd⟩ | ⟨w, why, -, -, rfl⟩ := engineTurn_next_cases ht
  · exact h
  · exact h.did hd
  · exact h.finish _

/-! ### A host transaction -/

theorem StateInv.writeReg (h : StateInv s) (v : Word) (r : Reg) : StateInv (s.writeReg v r) := by
  cases r with
  | cmd => exact h.accept v
  | status => exact h.clearSticky v
  | seed u | taps u => exact h.setUnit (h.unitOk u)
  | _ => exact { h with }

/-- A word of a window lies wholly within its memory, since the capacities are multiples of 4 (20_memory R74 to R76). -/
theorem StateInv.writeTarget (h : StateInv s) (v : Word) (a : Nat) :
    StateInv (s.writeTarget v (busTarget s.params a)) := by
  have hg := maxGroups_mod s.params
  have hm := ksMax_mod s.params
  obtain ⟨-, ht⟩ | ⟨-, ⟨r, -, ht⟩ | ⟨ht, -⟩ | ⟨k, hk, -, ht⟩ | ⟨g, hlt, -, ht⟩ | ⟨k, hk, -, ht⟩⟩ :=
    busTarget_cases s.params a <;> rw [ht]
  · exact h.noteBusError
  · exact h.writeReg v r
  · exact h
  · exact h.pixWrite (show 4 * k + 4 ≤ _ by omega)
  · exact h.idxWrite (show g + 1 ≤ _ by omega)
  · exact h.ksWrite (show 4 * k + 4 ≤ _ by omega)

theorem StateInv.hostRead (h : StateInv s) (a : BusAddr) : StateInv (hostRead a s) := by
  by_cases hb : busTarget s.params a.toNat = .busError
  · rw [hostRead_busError a s hb]
    exact { h with violation := fun _ => rfl }
  · rw [hostRead_of_ne a s hb]
    exact { h with }

theorem StateInv.hostWrite (h : StateInv s) (a : BusAddr) (v : Word) : StateInv (hostWrite a v s) := by
  cases hb : s.isBusy with
  | false =>
    rw [hostWrite_idle a v s hb]
    exact h.writeTarget v a.toNat
  | true =>
    rw [hostWrite_busy a v s hb]
    split_ifs
    · exact h.noteBusError
    · exact h.clearSticky v
    · exact h.noteOverrun

theorem StateInv.hostTransaction (h : StateInv s) (x : HostTxn) : StateInv (hostTransaction x s) := by
  cases x with
  | read a => exact h.hostRead a
  | write a v => exact h.hostWrite a v

/-! ### Reset -/

/-- The invariant holds at reset whatever the parameters. -/
theorem stateInv_resetWith (p : Params) : StateInv (State.resetWith p) where
  pix := ⟨List.Pairwise.nil, List.forall_mem_nil _⟩
  idx := ⟨List.Pairwise.nil, List.forall_mem_nil _⟩
  ks := ⟨List.Pairwise.nil, List.forall_mem_nil _⟩
  units := ⟨⟨fun _ => rfl, absurd rfl⟩, ⟨fun _ => rfl, absurd rfl⟩⟩
  busy := fun _ hw => Engine.noConfusion hw
  violation := by simp [State.resetWith]

/-- What an abort draws is clipped to the capacities (70_reset R273). -/
theorem StateInv.abort (h : StateInv s) : StateInv s.abort := by
  have hp := h.pixWrite (k := 0) (vs := freeBytes s.draws (min s.pixBusy (3 * s.params.maxGroups))) (by simp)
  have hi := hp.idxWrite (g := 0) (vs := freeWords (s.draws + min s.pixBusy (3 * s.params.maxGroups))
    (min s.idxBusy s.params.maxGroups)) (by simp)
  have hk := hi.ksWrite (k := 0) (vs := freeBytes (s.draws + min s.pixBusy (3 * s.params.maxGroups) +
    min s.idxBusy s.params.maxGroups) (min s.ksBusy s.params.ksMax)) (by simp)
  exact { hk with }

theorem StateInv.applyReset (h : StateInv s) : StateInv (applyReset s) :=
  have hm := h.abort
  { stateInv_resetWith s.params with
    pix := hm.pix
    idx := hm.idx
    ks := hm.ks
    violation := fun hv => absurd hv (by simp [Machine.applyReset, State.resetWith]) }

/-! ### The statements -/

/-- Settles O58: State.reset is the reset state of the default parameters. -/
theorem resetMeetsTheInvariant : Obligations.ResetMeetsTheInvariant := stateInv_resetWith Config.params

/-- Settles O59: the inputs are no part of the invariant, and each thing that can be next keeps it. -/
theorem everyStepKeepsTheInvariant : Obligations.EveryStepKeepsTheInvariant := by
  intro s t h hs
  have hi : ∀ rest, StateInv { s with inputs := rest } := fun _ => { h with }
  obtain ⟨-, ht⟩ | ⟨x, rest, -, rfl⟩ | ⟨rest, -, rfl⟩ := step_next_cases hs
  · exact (hi _).engineTurn ht
  · exact (hi rest).hostTransaction x
  · exact (hi rest).applyReset

end Sys2Proof
end
section
/-! PROOF. HEIGHT and WIDTH enter a command only through their product (10_state R61): each branch of each command is taken
by the reshaped state as well, and leaves the same answer reshaped. -/

namespace Sys2Proof.Machine

/-- The state with another HEIGHT and WIDTH. -/
def State.reshape (s : State) (h w : Word) : State := { s with height := h, width := w }

variable {s : State} {h w : Word}

/-- The shape check speaks of the product alone (60_exceptions R245). -/
theorem State.shapeOk_iff (s : State) : s.ShapeOk ↔ 1 ≤ s.groups ∧ s.groups ≤ s.params.maxGroups := by
  have hpos : 0 < s.height.toNat * s.width.toNat ↔ _ := CanonicallyOrderedAdd.mul_pos
  exact and_assoc.symm.trans (and_congr_left' hpos.symm)

/-- A meaning answers from the reshaped state what it answers from the state, reshaped. -/
abbrev AnswersReshaped (f : State → Result) (s : State) (h w : Word) : Prop :=
  ∃ t, f s = .next t ∧ f (s.reshape h w) = .next (t.reshape h w)

/-! The commands on a unit alone do not read the shape. -/

theorem execLfsrSeed_reshape (s : State) (h w : Word) (u : LfsrUnit) : AnswersReshaped (execLfsrSeed u) s h w := by
  by_cases ht : (s.unit u).taps = 0
  · exact ⟨_, execLfsrSeed_noTaps ht, execLfsrSeed_noTaps ht⟩
  · exact ⟨_, execLfsrSeed_ok ht, (execLfsrSeed_ok (s := s.reshape h w) ht).trans (by cases u <;> rfl)⟩

theorem execLfsrStep_reshape (s : State) (h w : Word) (u : LfsrUnit) : AnswersReshaped (execLfsrStep u) s h w := by
  by_cases ht : (s.unit u).actTaps = 0
  · exact ⟨_, execLfsrStep_noTaps ht, execLfsrStep_noTaps ht⟩
  · exact ⟨_, execLfsrStep_ok ht, (execLfsrStep_ok (s := s.reshape h w) ht).trans (by cases u <;> rfl)⟩

theorem execLfsrGenks_reshape (s : State) (h w : Word) (u : LfsrUnit) : AnswersReshaped (execLfsrGenks u) s h w := by
  by_cases ht : (s.unit u).actTaps = 0
  · exact ⟨_, execLfsrGenks_noTaps ht, execLfsrGenks_noTaps ht⟩
  by_cases hl : s.params.ksMax < s.ksLen.toNat
  · exact ⟨_, execLfsrGenks_tooLong ht hl, execLfsrGenks_tooLong ht hl⟩
  · have hl := Nat.not_lt.1 hl
    exact ⟨_, execLfsrGenks_ok ht hl, (execLfsrGenks_ok (s := s.reshape h w) ht hl).trans (by cases u <;> rfl)⟩

/-! The other commands read it in ShapeOk and in n. -/

section SameProduct

variable (hg : (s.reshape h w).groups = s.groups)
include hg

theorem shapeOk_reshape : (s.reshape h w).ShapeOk ↔ s.ShapeOk := by
  rw [State.shapeOk_iff, State.shapeOk_iff, hg]
  rfl

theorem isPerm_indices_reshape : IsPerm ((s.reshape h w).indices (s.reshape h w).groups) (s.reshape h w).groups ↔
    IsPerm (s.indices s.groups) s.groups := by
  rw [hg]
  rfl

theorem execConfuse_reshape : AnswersReshaped execConfuse s h w := by
  by_cases hs : s.ShapeOk
  · have hs' := (shapeOk_reshape hg).2 hs
    by_cases hl : s.ksLen.toNat = 0 ∨ s.params.ksMax < s.ksLen.toNat
    · exact ⟨_, execConfuse_length hs hl, execConfuse_length hs' hl⟩
    · have h0 : s.ksLen.toNat ≠ 0 := by omega
      have hmax : s.ksLen.toNat ≤ s.params.ksMax := by omega
      refine ⟨_, execConfuse_ok hs h0 hmax, (execConfuse_ok hs' h0 hmax).trans ?_⟩
      rw [hg]
      rfl
  · exact ⟨_, execConfuse_shape hs, execConfuse_shape ((shapeOk_reshape hg).not.2 hs)⟩

theorem execDiffuse_reshape (u : LfsrUnit) : AnswersReshaped (execDiffuse u) s h w := by
  by_cases hs : s.ShapeOk
  · have hs' := (shapeOk_reshape hg).2 hs
    by_cases ht : (s.unit u).actTaps = 0
    · exact ⟨_, execDiffuse_noTaps hs ht, execDiffuse_noTaps hs' ht⟩
    · refine ⟨_, execDiffuse_ok hs ht, (execDiffuse_ok hs' ht).trans ?_⟩
      rw [State.unitShuffle, hg]
      cases u <;> rfl
  · exact ⟨_, execDiffuse_shape hs, execDiffuse_shape ((shapeOk_reshape hg).not.2 hs)⟩

theorem execUndiffuse_reshape : AnswersReshaped execUndiffuse s h w := by
  by_cases hs : s.ShapeOk
  · have hs' := (shapeOk_reshape hg).2 hs
    by_cases hl : s.idxLen.toNat = s.groups
    · have hl' := hl.trans hg.symm
      by_cases hp : IsPerm (s.indices s.groups) s.groups
      · refine ⟨_, execUndiffuse_ok hs hl hp,
          (execUndiffuse_ok hs' hl' ((isPerm_indices_reshape hg).2 hp)).trans ?_⟩
        rw [hg]
        rfl
      · exact ⟨_, execUndiffuse_indices hs (.inr hp),
          execUndiffuse_indices hs' (.inr ((isPerm_indices_reshape hg).not.2 hp))⟩
    · exact ⟨_, execUndiffuse_indices hs (.inl hl), execUndiffuse_indices hs' (.inl (hg ▸ hl))⟩
  · exact ⟨_, execUndiffuse_shape hs, execUndiffuse_shape ((shapeOk_reshape hg).not.2 hs)⟩

theorem execEncrypt_reshape : AnswersReshaped execEncrypt s h w := by
  by_cases hs : s.ShapeOk
  · have hs' := (shapeOk_reshape hg).2 hs
    by_cases ht : s.keyTaps = 0
    · exact ⟨_, execEncrypt_noTaps hs ht, execEncrypt_noTaps hs' ht⟩
    · refine ⟨_, execEncrypt_ok hs ht, (execEncrypt_ok hs' ht).trans ?_⟩
      rw [State.confused, State.pipelineShuffle, State.pipelineKeystream, hg]
      rfl
  · exact ⟨_, execEncrypt_shape hs, execEncrypt_shape ((shapeOk_reshape hg).not.2 hs)⟩

theorem execDecrypt_reshape : AnswersReshaped execDecrypt s h w := by
  by_cases hs : s.ShapeOk
  · have hs' := (shapeOk_reshape hg).2 hs
    by_cases ht : s.keyTaps = 0
    · exact ⟨_, execDecrypt_noTaps hs ht, execDecrypt_noTaps hs' ht⟩
    by_cases hl : s.idxLen.toNat = s.groups
    · have hl' := hl.trans hg.symm
      by_cases hp : IsPerm (s.indices s.groups) s.groups
      · refine ⟨_, execDecrypt_ok hs ht hl hp,
          (execDecrypt_ok hs' ht hl' ((isPerm_indices_reshape hg).2 hp)).trans ?_⟩
        rw [State.pipelineKeystream, hg]
        rfl
      · exact ⟨_, execDecrypt_indices hs ht (.inr hp),
          execDecrypt_indices hs' ht (.inr ((isPerm_indices_reshape hg).not.2 hp))⟩
    · exact ⟨_, execDecrypt_indices hs ht (.inl hl), execDecrypt_indices hs' ht (.inl (hg ▸ hl))⟩
  · exact ⟨_, execDecrypt_shape hs, execDecrypt_shape ((shapeOk_reshape hg).not.2 hs)⟩

theorem exec_reshape (i : Instr) : AnswersReshaped (exec i) s h w := by
  cases i with
  | nop => exact ⟨_, rfl, rfl⟩
  | lfsrSeed u => exact execLfsrSeed_reshape s h w u
  | lfsrStep u => exact execLfsrStep_reshape s h w u
  | lfsrGenks u => exact execLfsrGenks_reshape s h w u
  | confuse => exact execConfuse_reshape hg
  | diffuse u => exact execDiffuse_reshape hg u
  | undiffuse => exact execUndiffuse_reshape hg
  | encrypt => exact execEncrypt_reshape hg
  | decrypt => exact execDecrypt_reshape hg

end SameProduct

/-- Settles O42: each command sees the shape only in ShapeOk and in n. -/
theorem shapeMattersOnlyThroughItsProduct : Obligations.ShapeMattersOnlyThroughItsProduct :=
  fun i _ _ _ hg => exec_reshape hg i

end Sys2Proof.Machine
end
section
/-! PROOF. What a command leaves alone: every location of a memory and every register outside its write set, and the sticky
bits (20_memory R90). -/

namespace Sys2Proof.Machine

variable {s t : State} {i : Instr} {k : Nat} {r : Reg}

/-! ### Memory outside the write set -/

/-- CONFUSE, UNDIFFUSE and DECRYPT have the first 3n bytes of PIXMEM as their write set. -/
theorem State.pixWriteSet_of_mem (s : State) (hi : i ∈ [Instr.confuse, .undiffuse, .decrypt]) :
    s.pixWriteSet i = 3 * s.groups := by
  simp only [List.mem_cons, List.not_mem_nil, or_false] at hi
  obtain rfl | rfl | rfl := hi <;> rfl

theorem Did.pixRead_eq (h : Did s i t) (hk : s.pixWriteSet i ≤ k) : t.pixRead k = s.pixRead k := by
  cases h with
  | ended | seeded | stepped | generated => simp
  | rewrote _ hi _ vs hv =>
    rw [s.pixWriteSet_of_mem hi] at hk
    simp [State.pixRead_pixWrite, hv, Nat.not_lt.2 hk]
  | diffused =>
    have hk : 3 * s.groups ≤ k := hk
    simp [State.pixRead_pixWrite, Nat.not_lt.2 hk]
  | encrypted _ vs hv =>
    have hk : 3 * s.groups ≤ k := hk
    simp [State.pixRead_pixWrite, hv, Nat.not_lt.2 hk]

theorem Did.idxRead_eq (h : Did s i t) (hk : s.idxWriteSet i ≤ k) : t.idxRead k = s.idxRead k := by
  cases h with
  | ended | seeded | stepped | generated | rewrote => simp
  | diffused =>
    have hk : s.groups ≤ k := hk
    simp [State.idxRead_idxWrite, Nat.not_lt.2 hk]
  | encrypted _ _ _ ws hw =>
    have hk : s.groups ≤ k := hk
    simp [State.idxRead_idxWrite, hw, Nat.not_lt.2 hk]

theorem Did.ksRead_eq (h : Did s i t) (hk : s.ksWriteSet i ≤ k) : t.ksRead k = s.ksRead k := by
  cases h with
  | ended | seeded | stepped | rewrote | diffused | encrypted => simp
  | generated =>
    have hk : s.ksLen.toNat ≤ k := hk
    simp [State.ksRead_ksWrite, Nat.not_lt.2 hk]

/-! ### Registers outside the write set -/

@[simp] theorem State.readReg_pixWrite (s : State) (a : Nat) (vs : List Byte) (r : Reg) :
    (s.pixWrite a vs).readReg r = s.readReg r := rfl

@[simp] theorem State.readReg_idxWrite (s : State) (a : Nat) (vs : List Word) (r : Reg) :
    (s.idxWrite a vs).readReg r = s.readReg r := rfl

@[simp] theorem State.readReg_ksWrite (s : State) (a : Nat) (vs : List Byte) (r : Reg) :
    (s.ksWrite a vs).readReg r = s.readReg r := rfl

/-- The end of a command shows in STATUS alone. -/
theorem State.readReg_finish (s : State) (e : ErrCode) (h : r ≠ .status) : (s.finish e).readReg r = s.readReg r := by
  cases r with
  | status => exact absurd rfl h
  | _ => rfl

theorem State.readReg_setIdxLen (s : State) (v : Word) (h : r ≠ .idxLen) :
    (s.setIdxLen v).readReg r = s.readReg r := by
  cases r with
  | idxLen => exact absurd rfl h
  | _ => rfl

theorem State.readReg_setBitOut (s : State) (f : Bool) (h : r ≠ .bitOut) :
    (s.setBitOut f).readReg r = s.readReg r := by
  cases r with
  | bitOut => exact absurd rfl h
  | _ => rfl

/-- Of the registers of a unit only those show that hold something else. -/
theorem State.readReg_setUnit (s : State) {u : LfsrUnit} {x : LfsrRegs} (hseed : x.seed = (s.unit u).seed)
    (htaps : x.taps = (s.unit u).taps) (hact : x.actTaps = (s.unit u).actTaps ∨ r ≠ .actTaps u) (hst : r ≠ .state u) :
    (s.setUnit u x).readReg r = s.readReg r := by
  cases r with
  | seed v | taps v | actTaps v | state v =>
    by_cases hv : v = u
    · subst hv
      simp_all [State.readReg]
    · simp [State.readReg, State.unit_setUnit_eq, hv]
  | _ => cases u <;> rfl

theorem Did.readReg_eq (h : Did s i t) (hr : r ≠ .status) (hw : r ∉ regWriteSet i) : t.readReg r = s.readReg r := by
  cases h with
  | ended => exact s.readReg_finish _ hr
  | seeded u =>
    obtain ⟨hact, hst⟩ : r ≠ .actTaps u ∧ r ≠ .state u := by simpa [regWriteSet] using hw
    rw [State.readReg_finish _ _ hr, s.readReg_setUnit (by simp) (by simp) (.inr hact) hst]
  | stepped u =>
    obtain ⟨hst, hbit⟩ : r ≠ .state u ∧ r ≠ .bitOut := by simpa [regWriteSet] using hw
    rw [State.readReg_finish _ _ hr, State.readReg_setBitOut _ _ hbit,
      s.readReg_setUnit (by simp) (by simp) (.inl (by simp)) hst]
  | generated u =>
    have hst : r ≠ .state u := by simpa [regWriteSet] using hw
    rw [State.readReg_finish _ _ hr, State.readReg_setUnit _ (by simp) (by simp) (.inl (by simp)) hst,
      State.readReg_ksWrite]
  | rewrote => rw [State.readReg_finish _ _ hr, State.readReg_pixWrite]
  | diffused u =>
    obtain ⟨hlen, hst⟩ : r ≠ .idxLen ∧ r ≠ .state u := by simpa [regWriteSet] using hw
    rw [State.readReg_finish _ _ hr, State.readReg_setUnit _ (by simp) (by simp) (.inl (by simp)) hst,
      State.readReg_setIdxLen _ _ hlen, State.readReg_idxWrite, State.readReg_pixWrite]
  | encrypted =>
    have hlen : r ≠ .idxLen := by simpa [regWriteSet] using hw
    rw [State.readReg_finish _ _ hr, State.readReg_setIdxLen _ _ hlen, State.readReg_idxWrite, State.readReg_pixWrite]

/-- No command touches the sticky bits or the violation mark (10_state R39, R40, 60_exceptions R260 (b)). -/
theorem Did.sticky_eq (h : Did s i t) :
    t.overrun = s.overrun ∧ t.buserr = s.buserr ∧ t.violation = s.violation := by
  cases h <;> simp

/-- Settles O39: one frame rule for each memory, one for the registers and one for the sticky bits. -/
theorem commandsStayInTheirWriteSet : Obligations.CommandsStayInTheirWriteSet := by
  intro i s t h
  have hd := exec_next_did h
  exact ⟨fun _ => hd.pixRead_eq, fun _ => hd.idxRead_eq, fun _ => hd.ksRead_eq, fun _ => hd.readReg_eq, hd.sticky_eq⟩

end Sys2Proof.Machine
end

section
/-! PROOF. The host bus outside the register window: the bus errors of 20_memory R79, the three memory windows while IDLE
(R74 to R76), and what a read may change (R82). -/

namespace Sys2Proof.Machine

variable {s : State} {a : BusAddr} {k : Nat}

/-! ### Bus errors -/

/-- A bus-error write is dropped with BUSERR, busy or not (20_memory R79, 70_reset R283). -/
theorem hostWrite_busError (v : Word) (h : busTarget s.params a.toNat = .busError) :
    hostWrite a v s = s.noteBusError := by
  simp [hostWrite, h, State.writeTarget]

/-- STATUS stands at offset 0x024 alone (10_state R34). -/
theorem busTarget_eq_status {p : Params} (h : busTarget p a.toNat = .reg .status) : a = 0x024 := by
  have hm := busTarget_eq_reg h
  have ha : a.toNat = 0x024 := by simpa [regMap] using hm
  exact BitVec.eq_of_toNat_eq ha

/-- A write while IDLE that reaches anything but STATUS leaves BUSERR. -/
theorem State.writeTarget_buserr (s : State) (v : Word) {g : Target} (h1 : g ≠ .busError) (h2 : g ≠ .reg .status) :
    (s.writeTarget v g).buserr = s.buserr := by
  cases g with
  | busError => exact absurd rfl h1
  | reg r =>
    cases r with
    | status => exact absurd rfl h2
    | seed u | taps u => exact s.setUnit_buserr u _
    | _ => rfl
  | _ => rfl

/-- A write that reaches something other than STATUS leaves BUSERR, busy or not. -/
theorem hostWrite_buserr (v : Word) (h1 : busTarget s.params a.toNat ≠ .busError)
    (h2 : busTarget s.params a.toNat ≠ .reg .status) : (hostWrite a v s).buserr = s.buserr := by
  cases hb : s.isBusy with
  | false =>
    rw [hostWrite_idle a v s hb]
    exact s.writeTarget_buserr v h1 h2
  | true =>
    rw [hostWrite_busy_dropped v hb rfl h1 h2]
    rfl

/-- Settles O49: an address is unreachable exactly where its target is a bus error, and of the other targets only STATUS
writes BUSERR. -/
theorem unreachableAddressesSetBusError : Obligations.UnreachableAddressesSetBusError := by
  intro s a v
  rw [unreachable_iff]
  refine ⟨fun h => ⟨hostWrite_busError v h, ?_⟩, fun h => ⟨?_, ?_⟩⟩
  · rw [hostRead_busError a s h]
  · rw [hostRead_of_ne a s h]
  · by_cases ha : a = 0x024
    · rw [ha, hostWrite_status]
      simp
    · rw [hostWrite_buserr v h (mt busTarget_eq_status ha), decide_eq_false ha]
      simp

/-- Settles O52: a read ends in a bus error, or changes the port and the count of draws alone. -/
theorem readsHaveNoSideEffect : Obligations.ReadsHaveNoSideEffect := by
  intro s a
  by_cases h : busTarget s.params a.toNat = .busError
  · exact ⟨_, _, .inr ⟨(unreachable_iff _ _).2 h, hostRead_busError a s h⟩⟩
  · exact ⟨_, _, .inl (hostRead_of_ne a s h)⟩

/-! ### A target at its address -/

/-- While IDLE a read of what is reachable changes the port alone (20_memory R82). -/
theorem hostRead_idle {g : Target} (h : s.isBusy = false) (ht : busTarget s.params a.toNat = g) (hg : g ≠ .busError) :
    hostRead a s = { s with lastRead := s.readTarget g } := by
  subst ht
  rw [hostRead_of_ne a s hg, h]
  rfl

/-- The bus address of a PIXMEM word (20_memory R74). -/
theorem busTarget_pixAddr (p : Params) (h : 4 * k < 3 * p.maxGroups) :
    busTarget p (BitVec.ofNat 26 (0x1000000 + 4 * k)).toNat = .pix (4 * k) := by
  have := maxGroups_le p
  rw [BitVec.toNat_ofNat, Nat.mod_eq_of_lt (by omega), busTarget_pix p h]

/-- The bus address of an IDXMEM entry (20_memory R75). -/
theorem busTarget_idxAddr (p : Params) (h : k < p.maxGroups) :
    busTarget p (BitVec.ofNat 26 (0x2000000 + 4 * k)).toNat = .idx k := by
  have := maxGroups_le p
  rw [BitVec.toNat_ofNat, Nat.mod_eq_of_lt (by omega), busTarget_idx p h]

/-- The bus address of a KSMEM word (20_memory R76). -/
theorem busTarget_ksAddr (p : Params) (h : 4 * k < p.ksMax) :
    busTarget p (BitVec.ofNat 26 (0x3000000 + 4 * k)).toNat = .ks (4 * k) := by
  have := ksMax_le p
  rw [BitVec.toNat_ofNat, Nat.mod_eq_of_lt (by omega), busTarget_ks p h]

/-! ### Words of the byte memories -/

/-- Byte c of a word read from PIXMEM, busy or not (20_memory R74, 70_reset R281). -/
theorem State.readTarget_pix_byte (s : State) (k : Nat) : ∀ c < 4, (s.readTarget (.pix k)).extractLsb' (8 * c) 8 =
    if k + c < s.pixBusy then wordByte (Config.freeWord s.draws) c else s.pixRead (k + c) :=
  wordOfBytes_byte (fun c => if k + c < s.pixBusy then wordByte (Config.freeWord s.draws) c else s.pixRead (k + c))

/-- Byte c of a word read from KSMEM, busy or not (20_memory R76, 70_reset R281). -/
theorem State.readTarget_ks_byte (s : State) (k : Nat) : ∀ c < 4, (s.readTarget (.ks k)).extractLsb' (8 * c) 8 =
    if k + c < s.ksBusy then wordByte (Config.freeWord s.draws) c else s.ksRead (k + c) :=
  wordOfBytes_byte (fun c => if k + c < s.ksBusy then wordByte (Config.freeWord s.draws) c else s.ksRead (k + c))

/-- A word written to PIXMEM: byte c of the word at k + c, and every other byte as it was (20_memory R74). -/
theorem State.pixRead_pixWrite_word (s : State) (k : Nat) (v : Word) :
    (∀ c < 4, (s.pixWrite k (bytesOfWord v)).pixRead (k + c) = v.extractLsb' (8 * c) 8) ∧
    ∀ j, j < k ∨ k + 4 ≤ j → (s.pixWrite k (bytesOfWord v)).pixRead j = s.pixRead j := by
  have hl : (bytesOfWord v).length = 4 := rfl
  refine ⟨fun c hc => ?_, fun j hj => ?_⟩ <;> rw [State.pixRead_pixWrite, hl]
  · rw [if_pos (by omega), Nat.add_sub_cancel_left, bytesOfWord_getD v c hc]
  · rw [if_neg (by omega)]

/-- A word written to KSMEM, as in PIXMEM (20_memory R76). -/
theorem State.ksRead_ksWrite_word (s : State) (k : Nat) (v : Word) :
    (∀ c < 4, (s.ksWrite k (bytesOfWord v)).ksRead (k + c) = v.extractLsb' (8 * c) 8) ∧
    ∀ j, j < k ∨ k + 4 ≤ j → (s.ksWrite k (bytesOfWord v)).ksRead j = s.ksRead j := by
  have hl : (bytesOfWord v).length = 4 := rfl
  refine ⟨fun c hc => ?_, fun j hj => ?_⟩ <;> rw [State.ksRead_ksWrite, hl]
  · rw [if_pos (by omega), Nat.add_sub_cancel_left, bytesOfWord_getD v c hc]
  · rw [if_neg (by omega)]

/-! ### While IDLE no location is in a write set -/

theorem State.running_of_idle (h : s.isBusy = false) : s.running = none := by
  simp [State.running, s.isBusy_eq_false_iff.1 h]

theorem State.pixBusy_of_idle (h : s.isBusy = false) : s.pixBusy = 0 := by
  simp [State.pixBusy, State.running_of_idle h]

theorem State.idxBusy_of_idle (h : s.isBusy = false) : s.idxBusy = 0 := by
  simp [State.idxBusy, State.running_of_idle h]

theorem State.ksBusy_of_idle (h : s.isBusy = false) : s.ksBusy = 0 := by
  simp [State.ksBusy, State.running_of_idle h]

/-! ### The statements about the windows -/

/-- Settles O50: each window by its target, the write by the four bytes of the word, the read by the word of four bytes. -/
theorem byteWindowsAreLittleEndian : Obligations.ByteWindowsAreLittleEndian := by
  refine ⟨fun s a v h ha => ?_, fun s a v h ha => ?_⟩
  · have ht := busTarget_pixAddr s.params ha
    obtain ⟨hin, hout⟩ := s.pixRead_pixWrite_word (4 * a) v
    refine ⟨⟨s.pixWrite (4 * a) (bytesOfWord v), ?_, hin, hout, rfl⟩, _, hostRead_idle h ht (by simp), fun c hc => ?_⟩
    · rw [hostWrite_idle _ v s h, ht]
      rfl
    · rw [s.readTarget_pix_byte _ c hc, State.pixBusy_of_idle h, if_neg (Nat.not_lt_zero _)]
  · have ht := busTarget_ksAddr s.params ha
    obtain ⟨hin, hout⟩ := s.ksRead_ksWrite_word (4 * a) v
    refine ⟨⟨s.ksWrite (4 * a) (bytesOfWord v), ?_, hin, hout, rfl⟩, _, hostRead_idle h ht (by simp), fun c hc => ?_⟩
    · rw [hostWrite_idle _ v s h, ht]
      rfl
    · rw [s.readTarget_ks_byte _ c hc, State.ksBusy_of_idle h, if_neg (Nat.not_lt_zero _)]

/-- One entry written to IDXMEM, and every other entry as it was (20_memory R75). -/
theorem State.idxRead_idxWrite_singleton (s : State) (g h : Nat) (v : Word) :
    (s.idxWrite g [v]).idxRead h = if h = g then v else s.idxRead h := by
  rw [State.idxRead_idxWrite, List.length_singleton]
  by_cases hg : h = g
  · simp [hg]
  · rw [if_neg hg, if_neg (by omega)]

/-- Settles O51: the window by its target, the write as one entry. -/
theorem indexWindowHoldsWholeWords : Obligations.IndexWindowHoldsWholeWords := by
  intro s g v h hg
  have ht := busTarget_idxAddr s.params hg
  refine ⟨⟨s.idxWrite g [v], ?_, ?_, fun j hj => ?_, rfl⟩, ?_⟩
  · rw [hostWrite_idle _ v s h, ht]
    rfl
  · rw [State.idxRead_idxWrite_singleton, if_pos rfl]
  · rw [State.idxRead_idxWrite_singleton, if_neg hj]
  · rw [hostRead_idle h ht (by simp), State.readTarget, State.idxBusy_of_idle h, if_neg (Nat.not_lt_zero _)]

end Sys2Proof.Machine
end

section
/-! PROOF. The encoding: a word is its three fields, the decoder read backwards, and the statements of 30_encoding. -/

namespace Sys2Proof

/-! ### A word is its three fields (30_encoding R101) -/

theorem Word.toNat_opcode (w : Word) : w.opcode.toNat = w.toNat % 256 := by
  simp [Word.opcode, BitVec.extractLsb'_toNat]

theorem Word.toNat_unitBit (w : Word) : w.unitBit.toNat = w.toNat / 256 % 2 :=
  Nat.toNat_testBit w.toNat 8

theorem Word.toNat_reserved (w : Word) : w.reserved.toNat = w.toNat / 512 := by
  have := w.isLt
  simp only [Word.reserved, BitVec.extractLsb'_toNat, Nat.shiftRight_eq_div_pow]
  omega

/-- No bit of a word lies outside its fields. -/
theorem Word.ext_fields {v w : Word} (hr : v.reserved = w.reserved) (hu : v.unitBit = w.unitBit)
    (ho : v.opcode = w.opcode) : v = w := by
  have hr := congrArg BitVec.toNat hr
  have hu := congrArg Bool.toNat hu
  have ho := congrArg BitVec.toNat ho
  rw [Word.toNat_reserved, Word.toNat_reserved] at hr
  rw [Word.toNat_unitBit, Word.toNat_unitBit] at hu
  rw [Word.toNat_opcode, Word.toNat_opcode] at ho
  apply BitVec.eq_of_toNat_eq
  omega

/-! ### The decoder read backwards (30_encoding R105) -/

/-- Both halves of the family RoundTrip, for every command at once. -/
theorem encode_roundTrip (i : Instr) : Laws.RoundTrip.Statement i := by
  cases i with
  | nop => exact Laws.RoundTrip.nop
  | lfsrSeed u => exact Laws.RoundTrip.lfsrSeed u
  | lfsrStep u => exact Laws.RoundTrip.lfsrStep u
  | lfsrGenks u => exact Laws.RoundTrip.lfsrGenks u
  | confuse => exact Laws.RoundTrip.confuse
  | diffuse u => exact Laws.RoundTrip.diffuse u
  | undiffuse => exact Laws.RoundTrip.undiffuse
  | encrypt => exact Laws.RoundTrip.encrypt
  | decrypt => exact Laws.RoundTrip.decrypt

theorem encode_wellFormed (i : Instr) : (encode i).wellFormed = true := (encode_roundTrip i).1

theorem decode_encode (i : Instr) : decode (encode i) = .command i := (encode_roundTrip i).2

/-- The encoder leaves RSV 0 (30_encoding R101). -/
theorem encode_reserved (i : Instr) : (encode i).reserved = 0 := by
  have h := encode_wellFormed i
  simp only [Word.wellFormed, Word.reservedOk, Bool.and_eq_true, beq_iff_eq] at h
  obtain ⟨⟨hr, -⟩, -⟩ := h
  exact hr

/-- What a word can decode to, and why: the command whose word it is, or illegal by the check of the format it fails. -/
inductive DecodesAs (w : Word) : Decoded → Prop where
  | reservedBits (h : w.reservedOk = false) : DecodesAs w (.illegal .reservedBits)
  | unknownOpcode (h : w.opcodeOk = false) : DecodesAs w (.illegal .unknownOpcode)
  | unitBitSet (h : w.unitOk = false) : DecodesAs w (.illegal .unitBitSet)
  | command (i : Instr) (h : w = encode i) : DecodesAs w (.command i)

section Branches

variable {w : Word} (hr : w.reserved = 0)
include hr

theorem DecodesAs.of_fields {i : Instr} (ho : w.opcode = (encode i).opcode) (hu : w.unitBit = (encode i).unitBit) :
    DecodesAs w (.command i) :=
  .command i (Word.ext_fields (hr.trans (encode_reserved i).symm) hu ho)

/-- A branch of the decoder at an OPCODE without a unit. -/
theorem DecodesAs.of_unitless {i : Instr} (ho : w.opcode = (encode i).opcode) (hi : (encode i).unitBit = false)
    (hm : (encode i).opcode ∈ unitlessOpcodes) : DecodesAs w (unitless w.unitBit i) := by
  cases hu : w.unitBit with
  | false => exact of_fields hr ho (hu.trans hi.symm)
  | true => exact .unitBitSet (by simpa [Word.unitOk, hu, ho] using hm)

/-- A branch of the decoder at an OPCODE with a unit. -/
theorem DecodesAs.of_unit {c : LfsrUnit → Instr}
    (h0 : w.opcode = (encode (c .u0)).opcode ∧ (encode (c .u0)).unitBit = false)
    (h1 : w.opcode = (encode (c .u1)).opcode ∧ (encode (c .u1)).unitBit = true) :
    DecodesAs w (.command (c (.ofBit w.unitBit))) := by
  obtain ⟨ho0, hu0⟩ := h0
  obtain ⟨ho1, hu1⟩ := h1
  cases hu : w.unitBit with
  | false => exact of_fields hr ho0 (hu.trans hu0.symm)
  | true => exact of_fields hr ho1 (hu.trans hu1.symm)

end Branches

/-- The decoder inverted, one branch after the other. -/
theorem decode_decodesAs (w : Word) : DecodesAs w (decode w) := by
  obtain hr | hr := ne_or_eq w.reserved 0
  · rw [decode_reserved hr]
    exact .reservedBits (by simpa [Word.reservedOk] using hr)
  simp only [decode, if_neg (not_not_intro hr)]
  split_ifs with h00 h01 h02 h03 h10 h20 h21 h30 h31
  · exact .of_unitless hr h00 rfl (by decide)
  · exact .of_unit hr ⟨h01, rfl⟩ ⟨h01, rfl⟩
  · exact .of_unit hr ⟨h02, rfl⟩ ⟨h02, rfl⟩
  · exact .of_unit hr ⟨h03, rfl⟩ ⟨h03, rfl⟩
  · exact .of_unitless hr h10 rfl (by decide)
  · exact .of_unit hr ⟨h20, rfl⟩ ⟨h20, rfl⟩
  · exact .of_unitless hr h21 rfl (by decide)
  · exact .of_unitless hr h30 rfl (by decide)
  · exact .of_unitless hr h31 rfl (by decide)
  · exact .unknownOpcode (by
      simpa [Word.opcodeOk, unitlessOpcodes, unitOpcodes] using ⟨h00, h10, h21, h30, h31, h01, h02, h03, h20⟩)

theorem DecodesAs.eq_encode {w : Word} {i : Instr} (h : DecodesAs w (.command i)) : w = encode i := by
  cases h with
  | command _ h => exact h

theorem DecodesAs.not_wellFormed {w : Word} {why : IllegalReason} (h : DecodesAs w (.illegal why)) :
    w.wellFormed = false := by
  cases h with
  | reservedBits h | unknownOpcode h | unitBitSet h => simp [Word.wellFormed, h]

theorem decode_eq_command_iff {w : Word} {i : Instr} : decode w = .command i ↔ w = encode i :=
  ⟨fun h => (h ▸ decode_decodesAs w).eq_encode, fun h => h ▸ decode_encode i⟩

/-- Decode answers a command or an illegal word, and the check of the format tells which (30_encoding R105, R106). -/
theorem decode_cases (w : Word) :
    (w.wellFormed = true ∧ ∃ i, decode w = .command i) ∨ (w.wellFormed = false ∧ ∃ why, decode w = .illegal why) := by
  have h := decode_decodesAs w
  cases hd : decode w with
  | command i => exact .inl ⟨decode_eq_command_iff.1 hd ▸ encode_wellFormed i, i, rfl⟩
  | illegal why => exact .inr ⟨(hd ▸ h).not_wellFormed, why, rfl⟩

theorem wellFormed_iff_command (w : Word) : w.wellFormed = true ↔ ∃ i, decode w = .command i := by
  obtain ⟨hw, i, hd⟩ | ⟨hw, why, hd⟩ := decode_cases w <;> simp [hw, hd]

theorem exists_illegal_iff (w : Word) : (∃ why, decode w = .illegal why) ↔ w.wellFormed = false := by
  obtain ⟨hw, i, hd⟩ | ⟨hw, why, hd⟩ := decode_cases w <;> simp [hw, hd]

/-! ### The three checks on the word's number (30_encoding R101, R106) -/

theorem Word.reservedOk_eq_false (w : Word) : w.reservedOk = false ↔ 512 ≤ w.toNat := by
  rw [Word.reservedOk, beq_eq_false_iff_ne, ne_eq, Word.reserved_eq_zero, not_lt]

theorem Word.opcode_mem_iff (w : Word) (l : List Byte) : w.opcode ∈ l ↔ w.toNat % 256 ∈ l.map BitVec.toNat := by
  rw [← Word.toNat_opcode, List.mem_map_of_injective BitVec.toNat_injective]

theorem Word.opcodeOk_eq_false (w : Word) :
    w.opcodeOk = false ↔ w.toNat % 256 ∉ [0x00, 0x01, 0x02, 0x03, 0x10, 0x20, 0x21, 0x30, 0x31] := by
  have hp : ((unitlessOpcodes ++ unitOpcodes).map BitVec.toNat).Perm
      [0x00, 0x01, 0x02, 0x03, 0x10, 0x20, 0x21, 0x30, 0x31] := by decide
  rw [Word.opcodeOk, ← hp.mem_iff, ← Word.opcode_mem_iff, ← List.contains_iff_mem, Bool.not_eq_true]

theorem Word.unitOk_eq_false (w : Word) :
    w.unitOk = false ↔ w.getLsbD 8 = true ∧ w.toNat % 256 ∈ [0x00, 0x10, 0x21, 0x30, 0x31] := by
  rw [Word.unitOk, Bool.not_eq_false', Bool.and_eq_true, List.contains_iff_mem, Word.opcode_mem_iff]
  rfl

/-! ### The statements of the encoding -/

/-- Settles O2: decoding is inverted branch by branch, and the word of each command is read back. -/
theorem decodeInvertsEncode : Obligations.DecodeInvertsEncode := fun _ _ => decode_eq_command_iff

/-- The opcode map lists the word of every command (30_encoding R104). -/
theorem encode_mem_map (i : Instr) :
    encode i ∈ ([0x00, 0x01, 0x101, 0x02, 0x102, 0x03, 0x103, 0x10, 0x20, 0x120, 0x21, 0x30, 0x31] : List Word) := by
  cases i with
  | lfsrSeed u | lfsrStep u | lfsrGenks u | diffuse u => cases u <;> decide
  | nop | confuse | undiffuse | encrypt | decrypt => decide

/-- Settles O1: each word of the map is its command's, and a word that decodes to a command is that command's word. -/
theorem opcodeMapGivesThirteenLegalWords : Obligations.OpcodeMapGivesThirteenLegalWords := by
  refine ⟨⟨decode_encode .nop, decode_encode (.lfsrSeed .u0), decode_encode (.lfsrSeed .u1),
    decode_encode (.lfsrStep .u0), decode_encode (.lfsrStep .u1), decode_encode (.lfsrGenks .u0),
    decode_encode (.lfsrGenks .u1), decode_encode .confuse, decode_encode (.diffuse .u0), decode_encode (.diffuse .u1),
    decode_encode .undiffuse, decode_encode .encrypt, decode_encode .decrypt⟩, fun w hw => ?_⟩
  obtain ⟨-, i, hd⟩ | ⟨-, hill⟩ := decode_cases w
  · exact absurd (decode_eq_command_iff.1 hd ▸ encode_mem_map i) hw
  · exact hill

/-- Settles O3: the word is illegal exactly when it fails one of the format's three checks, each read on its number. -/
theorem illegalWordsAreTheReservedOnes : Obligations.IllegalWordsAreTheReservedOnes := by
  refine fun w => ⟨?_, wellFormed_iff_command w⟩
  rw [exists_illegal_iff, Word.wellFormed, Bool.and_eq_false_iff, Bool.and_eq_false_iff, Word.reservedOk_eq_false,
    Word.opcodeOk_eq_false, Word.unitOk_eq_false, or_assoc]

/-- Settles O4: two words of commands, and one word for each check that can fail. -/
theorem sampleWordsDecode : Obligations.SampleWordsDecode :=
  ⟨decode_encode (.diffuse .u1), decode_encode .decrypt, by decide, by decide, decode_reserved (by decide)⟩

end Sys2Proof
end

section
/-! PROOF. The generator (40_lfsr R132 to R135, R139): the tap mask read from the highest tap, one step as arithmetic, and the
keystream as the bits of the iterated step. -/

namespace Sys2Proof.Machine

variable {t : Word} {p : Nat}

/-! ### The tap mask (40_lfsr R132) -/

theorem highestSetBit_bounds (h : HighestSetBit t p) : 2 ^ p ≤ t.toNat ∧ t.toNat < 2 ^ (p + 1) := by
  obtain ⟨hp, hq⟩ := h
  exact ⟨Nat.ge_two_pow_of_testBit hp, Nat.lt_pow_two_of_testBit _ hq⟩

theorem ne_zero_of_highestSetBit (h : HighestSetBit t p) : t ≠ 0 := by
  rintro rfl
  obtain ⟨hp, -⟩ := h
  simp at hp

theorem tapSize_eq (h : HighestSetBit t p) : tapSize t = p + 1 := by
  have hb := highestSetBit_bounds h
  have ht : t.toNat ≠ 0 := (Nat.two_pow_pos p |>.trans_le hb.1).ne'
  rw [tapSize, (Nat.log2_eq_iff ht).2 hb]

/-- Every tap lies within the mask. -/
theorem tapMask_and_self (t : Word) : t &&& tapMask t = t := by
  apply BitVec.eq_of_toNat_eq
  rw [toNat_and_tapMask, tapSize, Nat.mod_eq_of_lt Nat.lt_log2_self]

/-- Masking, as a word. -/
theorem and_tapMask_eq_ofNat (x t : Word) : x &&& tapMask t = BitVec.ofNat 32 (x.toNat % 2 ^ tapSize t) := by
  rw [← toNat_and_tapMask, BitVec.ofNat_toNat, BitVec.setWidth_eq]

/-- Settles O22: size(T) by the highest tap, and the mask by size(T). -/
theorem tapMaskIsSizeBitsOfOnes : Obligations.TapMaskIsSizeBitsOfOnes := by
  intro t p h
  refine ⟨tapSize_eq h, tapSize_le t, ?_⟩
  rw [tapMask_toNat, tapSize_eq h]

/-! ### One step (40_lfsr R133) -/

/-- The parity is the count of the bits that are set, modulo 2. -/
theorem parityBelow_eq_countP (n : Nat) (v : Word) :
    parityBelow n v = decide ((List.range n).countP v.getLsbD % 2 = 1) := by
  induction n with
  | zero => rfl
  | succ n ih =>
    rw [parityBelow, ih, List.range_succ, List.countP_append, List.countP_singleton]
    cases v.getLsbD n
    · simp
    · simp only [Bool.true_xor, if_true, ← decide_not, decide_eq_decide]
      omega

/-- A bit shifted in at the right. -/
theorem shiftLeft_one_or_ofBool {w : Nat} (x : BitVec w) (b : Bool) :
    x <<< 1 ||| (BitVec.ofBool b).setWidth w = x.shiftConcat b := by
  apply BitVec.eq_of_getLsbD_eq
  intro i hi
  rw [BitVec.getLsbD_or, BitVec.getLsbD_shiftLeft, BitVec.getLsbD_setWidth, BitVec.getLsbD_ofBool,
    BitVec.getLsbD_shiftConcat]
  cases i <;> simp [hi]

theorem lfsrStep_bit (s t : Word) : (lfsrStep s t).1 = parity (s &&& t) := rfl

theorem lfsrStep_state (s t : Word) : (lfsrStep s t).2 = s.shiftConcat (lfsrStep s t).1 &&& tapMask t :=
  congrArg (· &&& tapMask t) (shiftLeft_one_or_ofBool s _)

/-- The next state as a number: bits lost beyond 32 are beyond size(T) as well. -/
theorem lfsrStep_state_toNat (s t : Word) :
    (lfsrStep s t).2.toNat = (2 * s.toNat + (lfsrStep s t).1.toNat) % 2 ^ tapSize t := by
  rw [lfsrStep_state, toNat_and_tapMask, BitVec.toNat_shiftConcat,
    Nat.mod_mod_of_dvd _ (Nat.pow_dvd_pow 2 (tapSize_le t)), Nat.shiftLeft_eq, pow_one, Nat.mul_comm]

/-- Settles O23: the parity as a count of tapped bits, and the next state as a number. -/
theorem lfsrStepShiftsInTheTapParity : Obligations.LfsrStepShiftsInTheTapParity := by
  intro s t p h _
  have hand : (s &&& t).getLsbD = fun q => s.getLsbD q && t.getLsbD q := funext fun _ => BitVec.getLsbD_and
  refine ⟨?_, ?_⟩
  · rw [lfsrStep_bit, parity, parityBelow_eq_countP, hand, List.countP_eq_length_filter]
  · rw [lfsrStep_state_toNat, tapSize_eq h]

/-! ### What the stream depends on (40_lfsr R134) -/

/-- One step reads only the low size(T) bits of the state. -/
theorem lfsrStep_and_tapMask (s t : Word) : lfsrStep (s &&& tapMask t) t = lfsrStep s t := by
  have hbit : (lfsrStep (s &&& tapMask t) t).1 = (lfsrStep s t).1 := by
    rw [lfsrStep_bit, lfsrStep_bit, BitVec.and_assoc, BitVec.and_comm (tapMask t), tapMask_and_self]
  refine Prod.ext hbit (BitVec.eq_of_toNat_eq ?_)
  rw [lfsrStep_state_toNat, lfsrStep_state_toNat, hbit, toNat_and_tapMask, Nat.add_mod, Nat.mul_mod_mod, ← Nat.add_mod]

theorem lfsrByte_and_tapMask (s t : Word) : lfsrByte (s &&& tapMask t) t = lfsrByte s t := by
  rw [lfsrByte, lfsrByte, lfsrPack_succ, lfsrPack_succ 7 0 s, lfsrStep_and_tapMask]

theorem lfsrBytes_succ_and_tapMask (s t : Word) (l : Nat) :
    lfsrBytes (s &&& tapMask t) t (l + 1) = lfsrBytes s t (l + 1) := by
  rw [lfsrBytes_succ, lfsrBytes_succ, lfsrByte_and_tapMask]

theorem parity_zero : parity 0 = false := by decide

/-- The state 0 draws the bit 0 and stays 0, whatever the taps. -/
theorem lfsrStep_zero (t : Word) : lfsrStep 0 t = (false, 0) := by
  have hbit : (lfsrStep 0 t).1 = false := (congrArg parity BitVec.zero_and).trans parity_zero
  refine Prod.ext hbit (BitVec.eq_of_toNat_eq ?_)
  rw [lfsrStep_state_toNat, hbit]
  exact Nat.zero_mod _

theorem lfsrPack_zero (k : Nat) (t : Word) : lfsrPack k 0 0 t = (0, 0) := by
  induction k with
  | zero => rfl
  | succ k ih => rw [lfsrPack_succ, lfsrStep_zero]; exact ih

theorem lfsrBytes_of_zero (t : Word) (l : Nat) : lfsrBytes 0 t l = (List.replicate l 0, 0) := by
  induction l with
  | zero => rfl
  | succ l ih => rw [lfsrBytes_succ, lfsrByte, lfsrPack_zero, ih, List.replicate_succ]

/-- The tap mask 1 has one bit of state, which it draws again and again. -/
theorem lfsrStep_tapMask_one {s : Word} (h : s.toNat < 2) : lfsrStep s 1 = (s.getLsbD 0, s) := by
  have hs : s = 0 ∨ s = 1 := by bv_omega
  obtain rfl | rfl := hs
  · exact lfsrStep_zero 1
  · rfl

/-- Settles O24: the first step already masks the state; and the states 0 and 1 by themselves. -/
theorem streamDependsOnSizeBitsOnly : Obligations.StreamDependsOnSizeBitsOnly := by
  refine ⟨fun s t l _ => ?_, lfsrBytes_of_zero, fun s => lfsrStep_tapMask_one⟩
  cases l with
  | zero => exact ⟨rfl, fun h => absurd h (by decide)⟩
  | succ l =>
    have h := lfsrBytes_succ_and_tapMask s t l
    exact ⟨congrArg Prod.fst h.symm, fun _ => congrArg Prod.snd h.symm⟩

/-! ### The packing (40_lfsr R135) -/

/-- One step of the register alone. -/
def lfsrNext (t s : Word) : Word := (lfsrStep s t).2

/-- Bit n drawn from state s, counted from 0. -/
def lfsrDrawn (s t : Word) (n : Nat) : Bool := (lfsrStep ((lfsrNext t)^[n] s) t).1

theorem lfsrDrawn_iterate (s t : Word) (m n : Nat) : lfsrDrawn ((lfsrNext t)^[m] s) t n = lfsrDrawn s t (n + m) := by
  rw [lfsrDrawn, ← Function.iterate_add_apply, lfsrDrawn]

/-- The packer moves the register and shifts the bit drawn into the byte. -/
theorem lfsrPack_succ_shiftConcat (k : Nat) (b : Byte) (s t : Word) :
    lfsrPack (k + 1) b s t = lfsrPack k (b.shiftConcat (lfsrDrawn s t 0)) (lfsrNext t s) t := by
  rw [lfsrPack_succ, shiftLeft_one_or_ofBool]
  rfl

theorem lfsrPack_state (k : Nat) (b : Byte) (s t : Word) : (lfsrPack k b s t).2 = (lfsrNext t)^[k] s := by
  induction k generalizing b s with
  | zero => rfl
  | succ k ih => rw [lfsrPack_succ_shiftConcat, ih, Function.iterate_succ_apply]

/-- After k steps the last bit drawn stands in bit 0, the first in bit k - 1, and the byte that was there above them. -/
theorem lfsrPack_getLsbD (k : Nat) (b : Byte) (s t : Word) {j : Nat} (hj : j < 8) :
    (lfsrPack k b s t).1.getLsbD j = if j < k then lfsrDrawn s t (k - 1 - j) else b.getLsbD (j - k) := by
  induction k generalizing b s with
  | zero => rfl
  | succ k ih =>
    rw [lfsrPack_succ_shiftConcat, ih, BitVec.getLsbD_shiftConcat, decide_eq_true (by omega), Bool.true_and]
    obtain hlt | rfl | hgt := Nat.lt_trichotomy j k
    · rw [if_pos hlt, if_pos (by omega), show k + 1 - 1 - j = k - 1 - j + 1 by omega]
      exact lfsrDrawn_iterate s t 1 _
    · simp
    · rw [if_neg (by omega), if_neg (by omega), if_neg (by omega), Nat.sub_add_eq]

theorem lfsrByte_state (s t : Word) : (lfsrByte s t).2 = (lfsrNext t)^[8] s := lfsrPack_state 8 0 s t

/-- The first bit drawn of a byte is its bit 7. -/
theorem lfsrByte_getLsbD (s t : Word) {n : Nat} (hn : n < 8) : (lfsrByte s t).1.getLsbD (7 - n) = lfsrDrawn s t n := by
  rw [lfsrByte, lfsrPack_getLsbD 8 0 s t (by omega), if_pos (by omega), show 8 - 1 - (7 - n) = n by omega]

theorem lfsrBytes_state (s t : Word) (l : Nat) : (lfsrBytes s t l).2 = (lfsrNext t)^[8 * l] s := by
  induction l generalizing s with
  | zero => rfl
  | succ l ih => rw [lfsrBytes_succ, ih, lfsrByte_state, ← Function.iterate_add_apply, Nat.mul_succ]

theorem lfsrBytes_getLsbD (s t : Word) (l : Nat) {n : Nat} (hn : n < 8 * l) :
    ((lfsrBytes s t l).1.getD (n / 8) 0).getLsbD (7 - n % 8) = lfsrDrawn s t n := by
  induction l generalizing s n with
  | zero => omega
  | succ l ih =>
    rw [lfsrBytes_succ]
    obtain hlt | hge := Nat.lt_or_ge n 8
    · rw [Nat.div_eq_of_lt hlt, Nat.mod_eq_of_lt hlt, List.getD_cons_zero, lfsrByte_getLsbD s t hlt]
    · obtain ⟨m, rfl⟩ := Nat.exists_eq_add_of_le' hge
      rw [Nat.add_div_right m (by decide), Nat.add_mod_right, List.getD_cons_succ, ih _ (by omega), lfsrByte_state,
        lfsrDrawn_iterate]

/-- Settles O25: the bits of one byte, and then byte by byte. -/
theorem keystreamIsPackedMsbFirst : Obligations.KeystreamIsPackedMsbFirst := fun s t l =>
  ⟨lfsrBytes_length s t l, fun _ => lfsrBytes_getLsbD s t l, lfsrBytes_state s t l⟩

/-! ### Splitting a stream (40_lfsr R139) -/

theorem lfsrBytes_add (s t : Word) (a b : Nat) :
    lfsrBytes s t (a + b) =
      ((lfsrBytes s t a).1 ++ (lfsrBytes (lfsrBytes s t a).2 t b).1, (lfsrBytes (lfsrBytes s t a).2 t b).2) := by
  induction a generalizing s with
  | zero => rw [Nat.zero_add]; rfl
  | succ a ih => rw [Nat.succ_add, lfsrBytes_succ, ih, lfsrBytes_succ, List.cons_append]

/-- Settles O26: a draw of a + b bytes is a draw of a and a draw of b from where it ended. -/
theorem keystreamSplitsIntoDraws : Obligations.KeystreamSplitsIntoDraws := fun s t a b =>
  Prod.ext_iff.1 (lfsrBytes_add s t a b)

end Sys2Proof.Machine
end

section
/-! PROOF. The commands on one unit (40_lfsr R136 to R138): what each makes of the state, and that the other unit takes no
part (R140). -/

namespace Sys2Proof.Machine

/-! ### What each command makes of the state -/

/-- Settles O14: the two branches of LFSR_SEED, the mask read from the highest tap. -/
theorem lfsrSeedConstructsTheUnit : Obligations.LfsrSeedConstructsTheUnit := by
  refine ⟨decode_encode (.lfsrSeed .u0), decode_encode (.lfsrSeed .u1), fun u s => ⟨execLfsrSeed_noTaps, fun p hp => ?_⟩⟩
  refine (execLfsrSeed_ok (ne_zero_of_highestSetBit hp)).trans ?_
  rw [and_tapMask_eq_ofNat, tapSize_eq hp]
  rfl

/-- Settles O15: the two branches of LFSR_STEP. -/
theorem lfsrStepDrawsOneBit : Obligations.LfsrStepDrawsOneBit :=
  ⟨decode_encode (.lfsrStep .u0), decode_encode (.lfsrStep .u1), fun _ _ => ⟨execLfsrStep_noTaps, execLfsrStep_ok⟩⟩

/-- Settles O16: the three branches of LFSR_GENKS, and KSMEM read back after the write of KS_LEN bytes from byte 0. -/
theorem lfsrGenksWritesTheKeystream : Obligations.LfsrGenksWritesTheKeystream := by
  refine ⟨decode_encode (.lfsrGenks .u0), decode_encode (.lfsrGenks .u1),
    fun u s => ⟨execLfsrGenks_noTaps, execLfsrGenks_tooLong, fun ht hl => ⟨_, execLfsrGenks_ok ht hl, fun k => ?_, ?_⟩⟩⟩
  · simp [State.ksRead_ksWrite]
  · cases u <;> rfl

/-! ### The other unit (40_lfsr R140) -/

variable {s : State} {u v : LfsrUnit}

/-! Replacing a unit commutes with every other update of the state. -/

theorem State.setUnit_finish (s : State) (v : LfsrUnit) (r : LfsrRegs) (e : ErrCode) :
    (s.setUnit v r).finish e = (s.finish e).setUnit v r := by
  cases v <;> rfl

theorem State.setUnit_setBitOut (s : State) (v : LfsrUnit) (r : LfsrRegs) (f : Bool) :
    (s.setUnit v r).setBitOut f = (s.setBitOut f).setUnit v r := by
  cases v <;> rfl

theorem State.setUnit_setIdxLen (s : State) (v : LfsrUnit) (r : LfsrRegs) (x : Word) :
    (s.setUnit v r).setIdxLen x = (s.setIdxLen x).setUnit v r := by
  cases v <;> rfl

theorem State.setUnit_pixWrite (s : State) (v : LfsrUnit) (r : LfsrRegs) (k : Nat) (vs : List Byte) :
    (s.setUnit v r).pixWrite k vs = (s.pixWrite k vs).setUnit v r := by
  cases v <;> rfl

theorem State.setUnit_idxWrite (s : State) (v : LfsrUnit) (r : LfsrRegs) (g : Nat) (ws : List Word) :
    (s.setUnit v r).idxWrite g ws = (s.idxWrite g ws).setUnit v r := by
  cases v <;> rfl

theorem State.setUnit_ksWrite (s : State) (v : LfsrUnit) (r : LfsrRegs) (k : Nat) (vs : List Byte) :
    (s.setUnit v r).ksWrite k vs = (s.ksWrite k vs).setUnit v r := by
  cases v <;> rfl

/-- A meaning answers the same whatever unit v holds, and leaves it. -/
abbrev AnswersBeside (f : State → Result) (s : State) (v : LfsrUnit) (r : LfsrRegs) : Prop :=
  ∃ t, f s = .next t ∧ t.unit v = s.unit v ∧ f (s.setUnit v r) = .next (t.setUnit v r)

section OtherUnit

variable {r : LfsrRegs} (h : u ≠ v)

/-- A command that only ends does so from either state. -/
theorem answersBeside_of_ended {f : State → Result} {e : ErrCode} (hs : f s = .next (s.finish e))
    (hv : f (s.setUnit v r) = .next ((s.setUnit v r).finish e)) : AnswersBeside f s v r :=
  ⟨_, hs, rfl, hv.trans (congrArg _ (s.setUnit_finish v r e))⟩

theorem shapeOk_setUnit (s : State) (v : LfsrUnit) (r : LfsrRegs) : (s.setUnit v r).ShapeOk ↔ s.ShapeOk := by
  cases v <;> rfl

include h

theorem unitShuffle_setUnit (s : State) (r : LfsrRegs) : (s.setUnit v r).unitShuffle u = s.unitShuffle u := by
  rw [State.unitShuffle, s.unit_setUnit_of_ne r h.symm, State.setUnit_groups, State.setUnit_params]

theorem execLfsrSeed_setUnit : AnswersBeside (execLfsrSeed u) s v r := by
  have hu := s.unit_setUnit_of_ne r h.symm
  by_cases ht : (s.unit u).taps = 0
  · exact answersBeside_of_ended (execLfsrSeed_noTaps ht) (execLfsrSeed_noTaps (hu ▸ ht))
  · refine ⟨_, execLfsrSeed_ok ht, s.unit_setUnit_of_ne _ h, (execLfsrSeed_ok (hu ▸ ht)).trans ?_⟩
    rw [hu, s.setUnit_comm _ _ h.symm, State.setUnit_finish]

theorem execLfsrStep_setUnit : AnswersBeside (execLfsrStep u) s v r := by
  have hu := s.unit_setUnit_of_ne r h.symm
  by_cases ht : (s.unit u).actTaps = 0
  · exact answersBeside_of_ended (execLfsrStep_noTaps ht) (execLfsrStep_noTaps (hu ▸ ht))
  · refine ⟨_, execLfsrStep_ok ht, s.unit_setUnit_of_ne _ h, (execLfsrStep_ok (hu ▸ ht)).trans ?_⟩
    rw [hu, s.setUnit_comm _ _ h.symm, State.setUnit_setBitOut, State.setUnit_finish]

theorem execLfsrGenks_setUnit : AnswersBeside (execLfsrGenks u) s v r := by
  have hu := s.unit_setUnit_of_ne r h.symm
  by_cases ht : (s.unit u).actTaps = 0
  · exact answersBeside_of_ended (execLfsrGenks_noTaps ht) (execLfsrGenks_noTaps (hu ▸ ht))
  have hl : (s.setUnit v r).ksLen.toNat ≤ (s.setUnit v r).params.ksMax ↔ s.ksLen.toNat ≤ s.params.ksMax := by
    rw [State.setUnit_ksLen, State.setUnit_params]
  by_cases hk : s.ksLen.toNat ≤ s.params.ksMax
  · refine ⟨_, execLfsrGenks_ok ht hk, State.unit_setUnit_of_ne _ _ h,
      (execLfsrGenks_ok (hu ▸ ht) (hl.2 hk)).trans ?_⟩
    rw [hu, State.setUnit_ksLen, State.setUnit_ksWrite, State.setUnit_comm _ _ _ h.symm, State.setUnit_finish]
  · exact answersBeside_of_ended (execLfsrGenks_tooLong ht (Nat.lt_of_not_le hk))
      (execLfsrGenks_tooLong (hu ▸ ht) (Nat.lt_of_not_le (hl.not.2 hk)))

theorem execDiffuse_setUnit : AnswersBeside (execDiffuse u) s v r := by
  have hu := s.unit_setUnit_of_ne r h.symm
  have hshape := shapeOk_setUnit s v r
  by_cases hs : s.ShapeOk
  · by_cases ht : (s.unit u).actTaps = 0
    · exact answersBeside_of_ended (execDiffuse_noTaps hs ht) (execDiffuse_noTaps (hshape.2 hs) (hu ▸ ht))
    · have hp : (s.setUnit v r).pixRead = s.pixRead := funext fun _ => s.setUnit_pixRead v r _
      refine ⟨_, execDiffuse_ok hs ht, State.unit_setUnit_of_ne _ _ h,
        (execDiffuse_ok (hshape.2 hs) (hu ▸ ht)).trans ?_⟩
      rw [hu, hp, unitShuffle_setUnit h, State.setUnit_groups, State.setUnit_pixWrite, State.setUnit_idxWrite,
        State.setUnit_setIdxLen, State.setUnit_comm _ _ _ h.symm, State.setUnit_finish]
  · exact answersBeside_of_ended (execDiffuse_shape hs) (execDiffuse_shape (hshape.not.2 hs))

end OtherUnit

/-- Settles O40: the branch a command takes and what it writes are its own unit's. -/
theorem unitsAreIndependent : Obligations.UnitsAreIndependent := by
  intro u v i s r h hi
  simp only [List.mem_cons, List.not_mem_nil, or_false] at hi
  obtain rfl | rfl | rfl | rfl := hi
  · exact execLfsrSeed_setUnit h
  · exact execLfsrStep_setUnit h
  · exact execLfsrGenks_setUnit h
  · exact execDiffuse_setUnit h

end Sys2Proof.Machine
end

section
/-! PROOF. The confusion transform (41_confusion R160 to R162): what CONFUSE makes of the buffer, and that a second CONFUSE
undoes the first. -/

namespace Sys2Proof.Machine

variable {s t : State}

/-! ### Two states with one buffer -/

theorem groups_eq_of_sameBuffer (h : SameBuffer s t) : t.groups = s.groups := by
  obtain ⟨-, hh, hw, -⟩ := h
  rw [State.groups, State.groups, hh, hw]

theorem shapeOk_iff_of_sameBuffer (h : SameBuffer s t) : t.ShapeOk ↔ s.ShapeOk := by
  have hg := groups_eq_of_sameBuffer h
  obtain ⟨hp, -⟩ := h
  rw [State.shapeOk_iff, State.shapeOk_iff, hg, hp]

/-! ### The buffer CONFUSE leaves -/

/-- PIXMEM[0, 3n) as CONFUSE rewrites it (41_confusion R160); the pipeline's confused buffer is State.confused. -/
abbrev State.cyclicConfused (s : State) : List Byte :=
  (List.range (3 * s.groups)).map (fun k => s.pixRead k ^^^ s.ksRead (k % s.ksLen.toNat))

theorem State.pixRead_pixWrite_cyclicConfused (s : State) (k : Nat) :
    (s.pixWrite 0 s.cyclicConfused).pixRead k =
      if k < 3 * s.groups then s.pixRead k ^^^ s.ksRead (k % s.ksLen.toNat) else s.pixRead k := by
  by_cases hk : k < 3 * s.groups <;> simp [State.pixRead_pixWrite, hk]

/-! ### The statements -/

/-- Settles O17: the three branches of CONFUSE, and PIXMEM read back after the write of 3n bytes from byte 0. -/
theorem confuseXorsTheCyclicKeystream : Obligations.ConfuseXorsTheCyclicKeystream :=
  ⟨decode_encode .confuse, fun s => ⟨execConfuse_shape, execConfuse_length, fun hs h1 h2 =>
    ⟨_, execConfuse_ok hs (Nat.ne_of_gt h1) h2, s.pixRead_pixWrite_cyclicConfused, rfl⟩⟩⟩

/-- Settles O34: the second CONFUSE passes the same checks, and each byte is XORed twice with one keystream byte. -/
theorem confuseTwiceRestoresTheBuffer : Obligations.ConfuseTwiceRestoresTheBuffer := by
  intro s hs h1 h2
  refine ⟨_, execConfuse_ok hs (Nat.ne_of_gt h1) h2, rfl, fun r hb hl hks => ?_⟩
  have hg : r.groups = s.groups := (groups_eq_of_sameBuffer hb).trans rfl
  have hr : r.ShapeOk := (shapeOk_iff_of_sameBuffer hb).2 hs
  obtain ⟨hp, hh, hw, hpix⟩ := hb
  refine ⟨_, execConfuse_ok hr (hl ▸ Nat.ne_of_gt h1) (by rw [hl, hp]; exact h2), rfl, hp, hh, hw, fun k hk => ?_⟩
  have hfirst : r.pixRead k = s.pixRead k ^^^ s.ksRead (k % s.ksLen.toNat) :=
    (hpix k hk).trans ((s.pixRead_pixWrite_cyclicConfused k).trans (if_pos hk))
  have hkey : r.ksRead (k % r.ksLen.toNat) = s.ksRead (k % s.ksLen.toNat) := by
    rw [hl, hks _ (Nat.mod_lt _ h1)]
  calc (r.pixWrite 0 r.cyclicConfused).pixRead k
      = r.pixRead k ^^^ r.ksRead (k % r.ksLen.toNat) :=
        (r.pixRead_pixWrite_cyclicConfused k).trans (if_pos (hg ▸ hk))
    _ = s.pixRead k := by rw [hfirst, hkey, BitVec.xor_assoc, BitVec.xor_self, BitVec.xor_zero]

end Sys2Proof.Machine
end

section
/-! PROOF. PermIndex (42_diffusion R182, R183, R187): the quotient table, the rounding to 53 bits, and the binary64 index
beside the exact one. -/

namespace Sys2Proof.Machine

/-! ### The quotient table (42_diffusion R183) -/

/-- Inside the table the shift is 60 - HighestSetBit(b). -/
theorem quotient255_of_mid {b : Nat} (h1 : 1 ≤ b) (h2 : b ≤ 254) :
    quotient255 b = ((b * 2 ^ (60 - b.log2 + 1) + 255) / 510, 60 - b.log2) :=
  (if_neg (by omega)).trans (if_neg (by omega))

/-- Settles O28: the shift of R183 is 60 - HighestSetBit(b). -/
theorem quotientIsTheNearestBinary64 : Obligations.QuotientIsTheNearestBinary64 := by
  refine ⟨rfl, rfl, fun b h1 h2 => ?_⟩
  rw [quotient255_of_mid h1 h2]
  obtain ⟨hlo, hhi⟩ := quotient255_shift b (by omega) (by omega)
  exact ⟨hlo, hhi, rfl⟩

/-! ### Rounding to 53 significant bits (42_diffusion R182) -/

theorem bitLength_le_53_iff (p : Nat) : ¬ 53 < bitLength p ↔ p < 2 ^ 53 := by
  unfold bitLength
  by_cases h : p = 0
  · simp [h]
  · rw [if_neg h, ← Nat.log2_lt h]
    omega

theorem round53_of_lt {p : Nat} (h : p < 2 ^ 53) : round53 p = (p, 0) :=
  if_neg ((bitLength_le_53_iff p).2 h)

/-- p / (2 * h) rounded to the nearest integer, ties to even, by quotient and remainder as R182 does it. -/
def roundHalfEven (p h : Nat) : Nat :=
  if h < p % (2 * h) ∨ (p % (2 * h) = h ∧ p / (2 * h) % 2 = 1) then p / (2 * h) + 1 else p / (2 * h)

theorem roundHalfEven_nearest (p : Nat) {h : Nat} (hh : 0 < h) :
    2 * p ≤ (2 * roundHalfEven p h + 1) * (2 * h) ∧ 2 * roundHalfEven p h * (2 * h) ≤ 2 * p + 2 * h ∧
    (2 * p = (2 * roundHalfEven p h + 1) * (2 * h) ∨ 2 * roundHalfEven p h * (2 * h) = 2 * p + 2 * h →
      roundHalfEven p h % 2 = 0) := by
  have hp := Nat.div_add_mod p (2 * h)
  have hr := Nat.mod_lt p (show 0 < 2 * h by omega)
  unfold roundHalfEven
  generalize p / (2 * h) = q at *
  generalize p % (2 * h) = r at *
  subst hp
  rw [Nat.mul_comm _ q]
  simp only [Nat.mul_add, Nat.add_mul, Nat.mul_assoc]
  split
  · simp only [Nat.mul_add, Nat.add_mul]
    omega
  · omega

/-- A product p of 54 + e bits is rounded in steps of 2^(e+1). -/
theorem exists_round53_eq {p : Nat} (h : 2 ^ 53 ≤ p) :
    ∃ e, 2 ^ (53 + e) ≤ p ∧ p < 2 ^ (54 + e) ∧ round53 p = (roundHalfEven p (2 ^ e), e + 1) := by
  have hp : p ≠ 0 := by omega
  obtain ⟨e, he⟩ := Nat.exists_eq_add_of_le ((Nat.le_log2 hp).2 h)
  refine ⟨e, he ▸ Nat.log2_self_le hp, (Nat.log2_lt hp).1 (by omega), ?_⟩
  have hlen : bitLength p = 53 + (e + 1) := by rw [bitLength, if_neg hp, he]; rfl
  rw [round53, if_pos (by omega)]
  simp only [hlen, Nat.add_sub_cancel_left, Nat.add_sub_cancel, Nat.pow_succ']
  rfl

/-- Settles O29: the quotient and the remainder of the dropped bits decide the direction; the two bounds on q follow from the
nearness and from p's length. -/
theorem roundingIsToNearestTiesToEven : Obligations.RoundingIsToNearestTiesToEven := by
  refine fun p => ⟨round53_of_lt, fun h q sh hq => ?_⟩
  obtain ⟨e, hlo, hhi, hround⟩ := exists_round53_eq h
  obtain ⟨rfl, rfl⟩ := Prod.mk.inj (hround.symm.trans hq)
  have hpos := Nat.two_pow_pos e
  obtain ⟨hup, hdown, htie⟩ := roundHalfEven_nearest p hpos
  rw [show 52 + (e + 1) = 53 + e by omega, show 53 + (e + 1) = 54 + e by omega, show 2 ^ (e + 1) = 2 * 2 ^ e from Nat.pow_succ']
  refine ⟨hlo, hhi, ?_, ?_, hup, hdown, htie⟩
  all_goals
    rw [Nat.pow_add] at hlo hhi
    generalize roundHalfEven p (2 ^ e) = q at *
    generalize 2 ^ e = h at *
  · have : 2 ^ 53 ≤ 2 * q + 1 := Nat.le_of_mul_le_mul_right (c := h) (by linarith) hpos
    omega
  · have : 2 * q < 2 ^ 54 + 1 := Nat.lt_of_mul_lt_mul_right (a := h) (by linarith)
    omega

/-- The value of p rounded to 53 significant bits. -/
def roundedValue (p : Nat) : Nat := (round53 p).1 * 2 ^ (round53 p).2

theorem roundedValue_of_lt {p : Nat} (h : p < 2 ^ 53) : roundedValue p = p := by
  rw [roundedValue, round53_of_lt h, Nat.pow_zero, Nat.mul_one]

/-- A product of at most 75 bits drops at most 22 of them, so it is rounded by at most 2^21. -/
theorem roundedValue_close {p : Nat} (h : p < 2 ^ 75) : roundedValue p ≤ p + 2 ^ 21 ∧ p ≤ roundedValue p + 2 ^ 21 := by
  by_cases hs : p < 2 ^ 53
  · rw [roundedValue_of_lt hs]
    omega
  · obtain ⟨hlo, -, -, -, hup, hdown, -⟩ := (roundingIsToNearestTiesToEven p).2 (Nat.not_lt.1 hs) _ _ Prod.mk.eta.symm
    have hsh : 52 + (round53 p).2 < 75 := (Nat.pow_lt_pow_iff_right Nat.one_lt_two).1 (hlo.trans_lt h)
    have hstep : 2 ^ (round53 p).2 ≤ 2 ^ 22 := Nat.pow_le_pow_right (by decide) (by omega)
    unfold roundedValue
    constructor <;> linarith

/-- A product that ends in 52 zeros is exact: the bits dropped are among them. -/
theorem roundedValue_two_pow_mul {i : Nat} (h : i < 2 ^ 22) : roundedValue (2 ^ 52 * i) = 2 ^ 52 * i := by
  by_cases hs : 2 ^ 52 * i < 2 ^ 53
  · exact roundedValue_of_lt hs
  · obtain ⟨hlo, -, -, -, hup, hdown, -⟩ := (roundingIsToNearestTiesToEven (2 ^ 52 * i)).2 (Nat.not_lt.1 hs) _ _ Prod.mk.eta.symm
    unfold roundedValue
    generalize (round53 (2 ^ 52 * i)).1 = q at *
    generalize (round53 (2 ^ 52 * i)).2 = sh at *
    have hsh : 52 + sh < 74 := (Nat.pow_lt_pow_iff_right Nat.one_lt_two).1 (hlo.trans_lt (show 2 ^ 52 * i < 2 ^ 74 by omega))
    obtain ⟨c, hc⟩ : 2 ^ sh ∣ 2 ^ 52 * i := (Nat.pow_dvd_pow 2 (by omega)).mul_right i
    have hpos := Nat.two_pow_pos sh
    rw [hc] at hup hdown ⊢
    have h1 : 2 * c ≤ 2 * q + 1 := Nat.le_of_mul_le_mul_right (c := 2 ^ sh) (by linarith) hpos
    have h2 : 2 * q ≤ 2 * c + 1 := Nat.le_of_mul_le_mul_right (c := 2 ^ sh) (by linarith) hpos
    rw [show q = c by omega, Nat.mul_comm]

/-! ### PermIndex (42_diffusion R182) -/

/-- The floor of the rounded product at the exponent e_b, whatever the sign of e_b plus the bits dropped. -/
theorem permIndexBinary64_eq (b i : Nat) :
    permIndexBinary64 b i = roundedValue ((quotient255 b).1 * i) / 2 ^ (quotient255 b).2 := by
  unfold permIndexBinary64 roundedValue
  by_cases hb : b = 0
  · subst hb
    simp [quotient255, round53, bitLength]
  rw [if_neg hb]
  obtain ⟨m, k⟩ := quotient255 b
  generalize hr : round53 (m * i) = r
  obtain ⟨q, sh⟩ := r
  simp only [hr]
  split
  case isTrue h => rw [Nat.mul_div_assoc _ (Nat.pow_dvd_pow 2 h), Nat.pow_div h (by decide)]
  case isFalse h =>
    rw [← Nat.mul_div_mul_right _ _ (Nat.two_pow_pos sh), ← Nat.pow_add, Nat.sub_add_cancel (by omega)]

/-- The floor of a value within 2^22 of x / 255 in units of 1 / K is x / 255, or one less where the quotient is an integer:
elsewhere the quotient is at least 1 / 255 away from the integers. -/
theorem div_eq_of_close {x v K : Nat} (hK : 255 * 2 ^ 22 < K) (h1 : 255 * v ≤ x * K + 255 * 2 ^ 22)
    (h2 : x * K ≤ 255 * v + 255 * 2 ^ 22) : v / K = x / 255 ∨ (v / K + 1 = x / 255 ∧ 255 ∣ x ∧ 0 < x) := by
  obtain ⟨e, r, hr, rfl⟩ : ∃ e r, r < 255 ∧ x = 255 * e + r := ⟨x / 255, x % 255, by omega, by omega⟩
  have hx : (255 * e + r) / 255 = e := by omega
  rw [hx]
  rw [Nat.add_mul, Nat.mul_assoc] at h1 h2
  have hrK : r * K ≤ 254 * K := Nat.mul_le_mul_right K (by omega)
  have hfloor {a : Nat} (ha1 : a * K ≤ v) (ha2 : v < a * K + K) : v / K = a :=
    Nat.div_eq_of_lt_le ha1 (by rwa [Nat.succ_mul])
  obtain rfl | hr0 := Nat.eq_zero_or_pos r
  · by_cases hv : e * K ≤ v
    · exact .inl (hfloor hv (by omega))
    · obtain ⟨a, rfl⟩ := Nat.exists_eq_succ_of_ne_zero (show e ≠ 0 by rintro rfl; omega)
      rw [Nat.succ_mul a K] at h1 h2 hv
      exact .inr ⟨by rw [hfloor (a := a) (by omega) (by omega)], by omega, by omega⟩
  · have hK1 : 1 * K ≤ r * K := Nat.mul_le_mul_right K hr0
    exact .inl (hfloor (by omega) (by omega))

/-- M_b is b * 2^k / 255 rounded to the nearest integer, so the error of M_b * i is at most i / 2. -/
theorem quotient255_mul_close {b i : Nat} (h1 : 1 ≤ b) (h2 : b ≤ 254) :
    2 * (255 * ((quotient255 b).1 * i)) ≤ 2 * (b * i * 2 ^ (quotient255 b).2) + 255 * i ∧
    2 * (b * i * 2 ^ (quotient255 b).2) ≤ 2 * (255 * ((quotient255 b).1 * i)) + 255 * i := by
  obtain ⟨-, -, hM⟩ := quotientIsTheNearestBinary64.2.2 b h1 h2
  rw [Nat.pow_succ] at hM
  generalize 2 ^ (quotient255 b).2 = K at *
  generalize (quotient255 b).1 = M at *
  have hlo : 510 * M ≤ 2 * (b * K) + 255 := by rw [← Nat.mul_assoc] at hM; omega
  have hhi : 2 * (b * K) ≤ 510 * M + 255 := by rw [← Nat.mul_assoc] at hM; omega
  constructor
  · linarith [Nat.mul_le_mul_right i hlo]
  · linarith [Nat.mul_le_mul_right i hhi]

theorem permIndexBinary64_zero (i : Nat) : permIndexBinary64 0 i = 0 := rfl

theorem permIndexBinary64_255 {i : Nat} (h : i < 2 ^ 22) : permIndexBinary64 255 i = i := by
  have hQ : quotient255 255 = (2 ^ 52, 52) := rfl
  rw [permIndexBinary64_eq, hQ, roundedValue_two_pow_mul h, Nat.mul_div_cancel_left _ (Nat.two_pow_pos 52)]

/-- R187 (c) inside the table: both roundings together move the product by less than 2^22, and 2^k > 255 * 2^22. -/
theorem permIndexBinary64_of_mid {b i : Nat} (h1 : 1 ≤ b) (h2 : b ≤ 254) (hi : i < 2 ^ 22) :
    permIndexBinary64 b i = b * i / 255 ∨ (permIndexBinary64 b i + 1 = b * i / 255 ∧ 255 ∣ b * i ∧ 0 < b * i) := by
  obtain ⟨hlo, hhi, -⟩ := quotientIsTheNearestBinary64.2.2 b h1 h2
  obtain ⟨hc1, hc2⟩ := quotient255_mul_close (i := i) h1 h2
  rw [permIndexBinary64_eq]
  generalize 2 ^ (quotient255 b).2 = K at *
  generalize (quotient255 b).1 * i = p at *
  have hK : 255 * 2 ^ 22 < K := by
    have := hlo.trans (Nat.mul_le_mul_right K h2)
    omega
  have hp : p < 2 ^ 75 := by
    have := Nat.mul_le_mul_right i hhi.le
    rw [Nat.mul_right_comm] at this
    omega
  obtain ⟨hr1, hr2⟩ := roundedValue_close hp
  exact div_eq_of_close hK (by omega) (by omega)

/-- R187 (c): the binary64 index is the exact one or one less. -/
theorem permIndexBinary64_cases {b i : Nat} (hb : b ≤ 255) (hi : i < 2 ^ 22) :
    permIndexBinary64 b i = permIndexExact b i ∨
      (permIndexBinary64 b i + 1 = permIndexExact b i ∧ 255 ∣ b * i ∧ 0 < b * i) := by
  unfold permIndexExact
  obtain rfl | h0 := Nat.eq_zero_or_pos b
  · exact .inl (by rw [permIndexBinary64_zero, Nat.zero_mul, Nat.zero_div])
  obtain rfl | h255 := hb.eq_or_lt
  · exact .inl (by rw [permIndexBinary64_255 hi, Nat.mul_div_cancel_left i (by decide)])
  · exact permIndexBinary64_of_mid h0 (Nat.le_of_lt_succ h255) hi

/-- Settles O31: the formula of each mode, and the two roundings against the distance of a quotient from the integers. -/
theorem binaryIndexIsExactOrOneLess : Obligations.BinaryIndexIsExactOrOneLess := by
  refine fun b i hb _ hi => ⟨rfl, fun m k q sh hQ hround => ?_, permIndexBinary64_cases hb hi⟩
  rw [permIndex, permIndexBinary64_eq, roundedValue, hQ, hround]

theorem permIndexExact_lt {b i : Nat} (hb : b < 255) (hi : 1 ≤ i) : permIndexExact b i < i :=
  Nat.div_lt_of_lt_mul (Nat.mul_lt_mul_of_pos_right hb hi)

theorem permIndexExact_255 (i : Nat) : permIndexExact 255 i = i := Nat.mul_div_cancel_left i (by decide)

/-- The exact index bounds the index of either mode. -/
theorem permIndex_le_exact (mode : PermIndexMode) {b i : Nat} (hb : b ≤ 255) (hi : i < 2 ^ 22) :
    permIndex mode b i ≤ permIndexExact b i := by
  cases mode with
  | exact => exact le_rfl
  | binary64 =>
    have h := permIndexBinary64_cases hb hi
    rw [permIndex]
    omega

theorem permIndex_255 (mode : PermIndexMode) {i : Nat} (hi : i < 2 ^ 22) : permIndex mode 255 i = i := by
  cases mode with
  | exact => exact permIndexExact_255 i
  | binary64 => exact permIndexBinary64_255 hi

/-- Settles O30: b = 255 draws i itself, and below it the exact index, which bounds both modes, is below i. -/
theorem swapPartnerIsInRange : Obligations.SwapPartnerIsInRange := by
  intro mode b i hb h1 hi
  obtain rfl | hlt := hb.eq_or_lt
  · rw [permIndex_255 mode hi]
    exact ⟨le_rfl, iff_of_true rfl rfl⟩
  · have h := (permIndex_le_exact mode hb hi).trans_lt (permIndexExact_lt hlt h1)
    exact ⟨h.le, iff_of_false h.ne hlt.ne⟩

end Sys2Proof.Machine
end

section
/-! PROOF. Shuffle (42_diffusion R181, R188, R192): the arrays the draws leave, one after the other, and that each is a
permutation. -/

namespace Sys2Proof.Machine

/-! ### The arrays, draw by draw -/

/-- The array after k of the swaps that the bytes draw, the first of them at i = top (42_diffusion R181). -/
def drawnArray (mode : PermIndexMode) (bytes : List Byte) (top : Nat) (idx : List Nat) : Nat → List Nat
  | 0 => idx
  | k + 1 => swapAt (drawnArray mode bytes top idx k) (top - k) (permIndex mode (bytes.getD k 0).toNat (top - k))

/-- The first draw may be made on the array before the others. -/
theorem drawnArray_cons (mode : PermIndexMode) (b : Byte) (bytes : List Byte) (top : Nat) (idx : List Nat) (k : Nat) :
    drawnArray mode (b :: bytes) (top + 1) idx (k + 1) =
      drawnArray mode bytes top (swapAt idx (top + 1) (permIndex mode b.toNat (top + 1))) k := by
  induction k with
  | zero => rfl
  | succ k ih =>
    rw [drawnArray, ih, Nat.add_sub_add_right, List.getD_cons_succ]
    rfl

/-- The loop of Shuffle is its draws, taken from the keystream beforehand (42_diffusion R192). -/
theorem shuffleFrom_eq_drawnArray (mode : PermIndexMode) (t : Word) (i : Nat) (idx : List Nat) (s : Word) :
    shuffleFrom mode t i idx s = (drawnArray mode (lfsrBytes s t i).1 i idx i, (lfsrBytes s t i).2) := by
  induction i generalizing idx s with
  | zero => rfl
  | succ i ih => rw [shuffleFrom_succ, ih, lfsrBytes_succ, drawnArray_cons]

@[simp] theorem drawnArray_length (mode : PermIndexMode) (bytes : List Byte) (top : Nat) (idx : List Nat) (k : Nat) :
    (drawnArray mode bytes top idx k).length = idx.length := by
  induction k with
  | zero => rfl
  | succ k ih => rw [drawnArray, swapAt_length, ih]

/-! ### The permutation -/

theorem permIndex_byte_le (mode : PermIndexMode) (b : Byte) {i : Nat} (h1 : 1 ≤ i) (hi : i < 2 ^ 22) :
    permIndex mode b.toNat i ≤ i :=
  (swapPartnerIsInRange mode b.toNat i (Nat.le_of_lt_succ b.isLt) h1 hi).1

theorem swapAt_perm {idx : List Nat} {i j : Nat} (hi : i < idx.length) (hj : j < idx.length) :
    (swapAt idx i j).Perm idx := by
  rw [swapAt, List.getD_eq_getElem _ _ hi, List.getD_eq_getElem _ _ hj]
  exact List.set_set_perm hi hj

/-- Every swap of Shuffle is inside the array, so the array stays a permutation of what it started from. -/
theorem shuffleFrom_perm (mode : PermIndexMode) (t : Word) {i : Nat} {idx : List Nat} (s : Word) (hl : i < idx.length)
    (hi : i < 2 ^ 22) : (shuffleFrom mode t i idx s).1.Perm idx := by
  induction i generalizing idx s with
  | zero => exact .refl idx
  | succ i ih =>
    have hj := permIndex_byte_le mode (lfsrByte s t).1 (Nat.succ_pos i) hi
    rw [shuffleFrom_succ]
    exact (ih _ (by rw [swapAt_length]; omega) (by omega)).trans (swapAt_perm hl (hj.trans_lt hl))

theorem shuffle_perm_range (mode : PermIndexMode) {n : Nat} (s t : Word) (h1 : 1 ≤ n) (hn : n ≤ 2 ^ 22) :
    (shuffle mode n s t).1.Perm (List.range n) :=
  shuffleFrom_perm mode t s (by rw [List.length_range]; omega) (by omega)

theorem isPerm_of_perm_range {idx : List Nat} {n : Nat} (h : idx.Perm (List.range n)) : IsPerm idx n :=
  ⟨fun _ hv => List.mem_range.1 (h.mem_iff.1 hv), h.nodup_iff.2 List.nodup_range⟩

/-- R188. -/
theorem isPerm_shuffle (mode : PermIndexMode) {n : Nat} (s t : Word) (h1 : 1 ≤ n) (hn : n ≤ 2 ^ 22) :
    IsPerm (shuffle mode n s t).1 n := isPerm_of_perm_range (shuffle_perm_range mode s t h1 hn)

/-- Settles O32: the arrays are those the draws leave, and each swap, inside the array, keeps the permutation. -/
theorem shuffleDrawsAPermutation : Obligations.ShuffleDrawsAPermutation := by
  refine fun mode n s t h1 hn => ⟨⟨drawnArray mode (lfsrBytes s t (n - 1)).1 (n - 1) (List.range n), rfl, ?_,
    shuffleFrom_eq_drawnArray ..⟩, shuffle_length .., isPerm_shuffle mode s t h1 hn⟩
  rintro k hk i j rfl rfl
  rw [drawnArray]
  generalize hA : drawnArray mode (lfsrBytes s t (n - 1)).1 (n - 1) (List.range n) k = a
  have hlen : a.length = n := by rw [← hA, drawnArray_length, List.length_range]
  have hj := permIndex_byte_le mode ((lfsrBytes s t (n - 1)).1.getD k 0) (i := n - 1 - k) (by omega) (by omega)
  generalize permIndex _ _ _ = j at *
  have hswap := fun x => swapAt_getD a (n - 1 - k) j x (by omega) (by omega)
  refine ⟨(swapAt_length ..).trans hlen, ?_, (hswap j).trans (if_pos rfl), fun x hi hx => ?_⟩
  · rw [hswap, if_pos rfl]
    split
    · next h => rw [h]
    · rfl
  · rw [hswap, if_neg hx, if_neg hi]

end Sys2Proof.Machine
end

section
/-! PROOF. The commands of diffusion (42_diffusion R184, R185, R189, R190): the bytes a gather leaves in PIXMEM, what DIFFUSE
and UNDIFFUSE make of the state, and that the second undoes the first. -/

namespace Sys2Proof.Machine

variable {s : State}

/-! ### PIXMEM and IDXMEM after a gather -/

theorem State.pixRead_pixWrite_gather (s : State) (src : Nat → Byte) {idx : List Nat} {g c : Nat} (hg : g < idx.length)
    (hc : c < 3) : (s.pixWrite 0 (gather src idx)).pixRead (3 * g + c) = src (3 * idx.getD g 0 + c) := by
  rw [State.pixRead_pixWrite, gather_length, if_pos (by omega), Nat.sub_zero, gather_getD src idx g c hg hc]

theorem State.pixRead_pixWrite_of_le (s : State) {vs : List Byte} {k : Nat} (hk : vs.length ≤ k) :
    (s.pixWrite 0 vs).pixRead k = s.pixRead k := by
  rw [State.pixRead_pixWrite, if_neg (by omega)]

theorem State.idxRead_idxWrite_indexWords (s : State) {idx : List Nat} {g : Nat} (hg : g < idx.length) :
    (s.idxWrite 0 (indexWords idx)).idxRead g = BitVec.ofNat 32 (idx.getD g 0) := by
  rw [State.idxRead_idxWrite, indexWords_length, if_pos (by omega)]
  simp [indexWords, hg]

theorem State.idxRead_idxWrite_of_le (s : State) {ws : List Word} {g : Nat} (hg : ws.length ≤ g) :
    (s.idxWrite 0 ws).idxRead g = s.idxRead g := by
  rw [State.idxRead_idxWrite, if_neg (by omega)]

/-- Settles O18: the three branches of DIFFUSE, and the two memories read back. -/
theorem diffuseGathersByItsShuffle : Obligations.DiffuseGathersByItsShuffle := by
  refine ⟨decode_encode (.diffuse .u0), decode_encode (.diffuse .u1),
    fun u s => ⟨execDiffuse_shape, execDiffuse_noTaps, fun hs ht idx s2 hsh => ⟨_, execDiffuse_ok hs ht, ?_⟩⟩⟩
  have hlen : idx.length = s.groups := by rw [← shuffle_length s.params.mode s.groups, hsh]
  rw [State.unitShuffle, hsh]
  refine ⟨fun g hg c hc => ?_, fun k hk => ?_, fun g hg => ?_, fun g hg => ?_, by cases u <;> rfl⟩
  · simpa using s.pixRead_pixWrite_gather s.pixRead (hlen ▸ hg) hc
  · simpa using s.pixRead_pixWrite_of_le (vs := gather s.pixRead idx) (by simpa [hlen] using hk)
  · simpa using State.idxRead_idxWrite_indexWords (s.pixWrite 0 (gather s.pixRead idx)) (hlen ▸ hg)
  · simpa using State.idxRead_idxWrite_of_le (s.pixWrite 0 (gather s.pixRead idx)) (ws := indexWords idx)
      (by simpa [hlen] using hg)

/-- Settles O19: the three branches of UNDIFFUSE; place indices[g] takes the group inverse[indices[g]] = g. -/
theorem undiffuseGathersByTheInverse : Obligations.UndiffuseGathersByTheInverse := by
  refine ⟨decode_encode .undiffuse, fun s => ⟨execUndiffuse_shape, execUndiffuse_indices,
    fun hs hl hp => ⟨_, execUndiffuse_ok hs hl hp, fun g hg c hc => ?_, fun k hk => ?_, rfl⟩⟩⟩
  · have hv := s.indices_getD s.groups g hg
    have hinv := inverse_getD hp (hg.trans_eq (s.indices_length s.groups).symm)
    have hlt : (s.idxRead g).toNat < s.groups := hp.1 _ (List.mem_map_of_mem (List.mem_range.2 hg))
    rw [hv] at hinv
    rw [State.finish_pixRead, State.pixRead_pixWrite_gather _ _ (by simpa using hlt) hc, hinv]
  · exact s.pixRead_pixWrite_of_le (by simpa using hk)

/-! ### One pixel-group (42_diffusion R190, 43_pipeline R217) -/

theorem State.groups_eq_one (hh : s.height = 1) (hw : s.width = 1) : s.groups = 1 := by
  rw [State.groups, hh, hw]
  rfl

theorem State.shapeOk_of_groups_eq_one (h : s.groups = 1) : s.ShapeOk := by
  rw [State.shapeOk_iff, h, Params.maxGroups]
  omega

/-- Shuffle of one group makes no draw. -/
theorem shuffle_one (mode : PermIndexMode) (s t : Word) : shuffle mode 1 s t = ([0], s) := rfl

theorem State.pixRead_pixWrite_gather_one (s : State) (src : Nat → Byte) (k : Nat) :
    (s.pixWrite 0 (gather src [0])).pixRead k = if k < 3 then src k else s.pixRead k := by
  split
  · next h => simpa using s.pixRead_pixWrite_gather src (idx := [0]) (g := 0) Nat.one_pos h
  · next h => exact s.pixRead_pixWrite_of_le (Nat.not_lt.1 h)

/-- Settles O33: with the array [0] the gather keeps every byte in its place. -/
theorem oneGroupIsNotDiffused : Obligations.OneGroupIsNotDiffused := by
  intro s hh hw
  have hg := State.groups_eq_one hh hw
  have hs := State.shapeOk_of_groups_eq_one hg
  constructor
  · intro u ht
    refine ⟨_, execDiffuse_ok hs ht, ?_⟩
    rw [State.unitShuffle, hg, shuffle_one]
    refine ⟨fun k => ?_, State.unit_setUnit .., ?_, State.setUnit_idxLen ..⟩
    · rw [State.finish_pixRead, State.setUnit_pixRead, State.setIdxLen_pixRead, State.idxWrite_pixRead,
        State.pixRead_pixWrite_gather_one, ite_self]
    · rw [State.finish_idxRead, State.setUnit_idxRead, State.setIdxLen_idxRead]
      exact State.idxRead_idxWrite_indexWords _ (idx := [0]) Nat.one_pos
  · intro ht
    refine ⟨_, execEncrypt_ok hs ht, ?_⟩
    rw [State.pipelineShuffle, hg, shuffle_one]
    refine ⟨fun k hk => ?_, State.idxRead_idxWrite_indexWords _ (idx := [0]) Nat.one_pos, rfl⟩
    have hk' : k < 3 * s.groups := by omega
    rw [State.finish_pixRead, State.setIdxLen_pixRead, State.idxWrite_pixRead, State.pixRead_pixWrite_gather_one,
      if_pos hk, xorBytes_getD _ _ k (by simpa using hk') (by simpa [State.pipelineKeystream] using hk'),
      s.pixels_getD _ k hk']

/-! ### The round trip (42_diffusion R189) -/

theorem State.groups_le_of_shapeOk (h : s.ShapeOk) : s.groups ≤ 2 ^ 22 := by
  have hle := (s.shapeOk_iff.1 h).2
  rw [Params.maxGroups] at hle
  omega

/-- The index array read back from IDXMEM is the array stored there: its entries fit in 32 bits. -/
theorem State.indices_eq {idx : List Nat} {n : Nat} (hl : idx.length = n) (hp : IsPerm idx n) (hn : n ≤ 2 ^ 22)
    (h : ∀ g < n, s.idxRead g = BitVec.ofNat 32 (idx.getD g 0)) : s.indices n = idx := by
  refine List.ext_getElem (by simp [hl]) fun g hg1 hg2 => ?_
  have hlt := hp.1 _ (List.getElem_mem hg2)
  rw [← List.getD_eq_getElem _ 0 hg1, s.indices_getD n g (by omega), h g (by omega), List.getD_eq_getElem _ 0 hg2,
    BitVec.toNat_ofNat, Nat.mod_eq_of_lt (by omega)]

/-- Every byte of the buffer is in a group that the permutation names. -/
theorem IsPerm.exists_byte {idx : List Nat} {n k : Nat} (hp : IsPerm idx n) (hl : idx.length = n) (hk : k < 3 * n) :
    ∃ g < n, ∃ c < 3, k = 3 * idx.getD g 0 + c := by
  obtain ⟨g, hg, hgk⟩ := List.getElem_of_mem (hp.mem hl (v := k / 3) (by omega))
  exact ⟨g, by omega, k % 3, by omega, by rw [List.getD_eq_getElem _ 0 hg, hgk]; omega⟩

/-- UNDIFFUSE on a stored permutation idx moves pixel-group g to place idx[g], and changes nothing but PIXMEM. -/
theorem exec_undiffuse_of_stored {idx : List Nat} (hs : s.ShapeOk) (hn : s.idxLen = BitVec.ofNat 32 s.groups)
    (hl : idx.length = s.groups) (hp : IsPerm idx s.groups)
    (hidx : ∀ g < s.groups, s.idxRead g = BitVec.ofNat 32 (idx.getD g 0)) :
    ∃ v, exec .undiffuse s = .next v ∧
      (∀ g < s.groups, ∀ c < 3, v.pixRead (3 * idx.getD g 0 + c) = s.pixRead (3 * g + c)) ∧
      v = { s with pixmem := v.pixmem, err := .success, engine := .idle } := by
  have hle := State.groups_le_of_shapeOk hs
  have hind := State.indices_eq hl hp hle hidx
  have hlen : s.idxLen.toNat = s.groups := by rw [hn, BitVec.toNat_ofNat, Nat.mod_eq_of_lt (by omega)]
  obtain ⟨-, hundiffuse⟩ := undiffuseGathersByTheInverse
  obtain ⟨-, -, hundiffuse⟩ := hundiffuse s
  obtain ⟨v, hv, hpix, -, hframe⟩ := hundiffuse hs hlen (hind.symm ▸ hp)
  refine ⟨v, hv, fun g hg c hc => ?_, hframe⟩
  rw [← hpix g hg c hc, ← s.indices_getD s.groups g hg, hind]

/-- Settles O35: UNDIFFUSE takes the array DIFFUSE stored, and moves group g of the gathered buffer, which is group idx[g] of
the buffer before, back to place idx[g]. -/
theorem undiffuseInvertsDiffuse : Obligations.UndiffuseInvertsDiffuse := by
  intro u s hs ht
  have hn := s.shapeOk_iff.1 hs
  obtain ⟨-, hlen, hperm⟩ := shuffleDrawsAPermutation s.params.mode s.groups (s.unit u).state (s.unit u).actTaps hn.1
    (State.groups_le_of_shapeOk hs)
  obtain ⟨-, -, hdiffuse⟩ := diffuseGathersByItsShuffle
  obtain ⟨-, -, hdiffuse⟩ := hdiffuse u s
  obtain ⟨t, hexec, hpix, -, hidx, -, hframe⟩ := hdiffuse hs ht _ _ Prod.mk.eta.symm
  generalize (shuffle s.params.mode s.groups (s.unit u).state (s.unit u).actTaps).1 = idx at *
  have htp : t.params = s.params := (congrArg State.params hframe).trans (State.setUnit_params ..)
  have hth : t.height = s.height := (congrArg State.height hframe).trans (State.setUnit_height ..)
  have htw : t.width = s.width := (congrArg State.width hframe).trans (State.setUnit_width ..)
  have htg : t.groups = s.groups := by rw [State.groups, State.groups, hth, htw]
  have hts : t.ShapeOk := t.shapeOk_iff.2 (by rw [htg, htp]; exact hn)
  refine ⟨t, hexec, congrArg State.err hframe, fun r hb ⟨hrlen, hridx⟩ => ?_⟩
  have hrg := (groups_eq_of_sameBuffer hb).trans htg
  have hrs := (shapeOk_iff_of_sameBuffer hb).2 hts
  obtain ⟨hrp, hrh, hrw, hrpix⟩ := hb
  rw [htg] at hridx hrpix
  obtain ⟨v, hv, hvpix, hvframe⟩ := exec_undiffuse_of_stored (idx := idx) hrs
    (hrg.symm ▸ hrlen.trans (congrArg State.idxLen hframe)) (hrg.symm ▸ hlen) (hrg.symm ▸ hperm)
    (hrg.symm ▸ fun g hg => (hridx g hg).trans (hidx g hg))
  rw [hrg] at hvpix
  refine ⟨v, hv, congrArg State.err hvframe, (congrArg State.params hvframe).trans (hrp.trans htp),
    (congrArg State.height hvframe).trans (hrh.trans hth), (congrArg State.width hvframe).trans (hrw.trans htw),
    fun k hk => ?_⟩
  obtain ⟨g, hg, c, hc, rfl⟩ := hperm.exists_byte hlen hk
  calc v.pixRead (3 * idx.getD g 0 + c)
      = r.pixRead (3 * g + c) := hvpix g hg c hc
    _ = t.pixRead (3 * g + c) := hrpix _ (by omega)
    _ = s.pixRead (3 * idx.getD g 0 + c) := hpix g hg c hc

end Sys2Proof.Machine
end

section
/-! PROOF. Distinct states of the generator (43_pipeline R215): size steps replace the register by the bits drawn, and one
step loses nothing, so equal streams come from equal states. -/

namespace Sys2Proof.Machine

variable {a b t : Word} {p : Nat}

/-! ### The register after k steps -/

/-- Within size(T) bits, k steps leave the bits drawn below bit k, the last in bit 0, and the register they found above. -/
theorem lfsrNext_iterate_getLsbD (s t : Word) (k : Nat) {j : Nat} (hj : j < tapSize t) :
    ((lfsrNext t)^[k] s).getLsbD j = if j < k then lfsrDrawn s t (k - 1 - j) else s.getLsbD (j - k) := by
  induction k generalizing j with
  | zero => rfl
  | succ k ih =>
    have h32 := hj.trans_le (tapSize_le t)
    rw [Function.iterate_succ_apply', lfsrNext, lfsrStep_state, BitVec.getLsbD_and, tapMask, BitVec.getLsbD_ofNat,
      Nat.testBit_two_pow_sub_one, BitVec.getLsbD_shiftConcat]
    cases j with
    | zero => simp [hj, lfsrDrawn]
    | succ j =>
      have hij := ih (j := j) (by omega)
      simp only [hj, h32, decide_true, Bool.true_and, Bool.and_true, Nat.succ_ne_zero, if_false, Nat.add_sub_cancel, hij,
        Nat.add_lt_add_iff_right, Nat.add_sub_add_right]
      rw [show k - (j + 1) = k - 1 - j by omega]

theorem lfsrNext_getLsbD_succ (s : Word) {q : Nat} (hq : q + 1 < tapSize t) :
    (lfsrNext t s).getLsbD (q + 1) = s.getLsbD q := lfsrNext_iterate_getLsbD s t 1 hq

theorem lfsrNext_getLsbD_zero (s t : Word) : (lfsrNext t s).getLsbD 0 = parity (s &&& t) :=
  lfsrNext_iterate_getLsbD s t 1 (tapSize_pos t)

/-! ### One step loses nothing -/

/-- Two words that differ in bit p alone: counted from bit 0, their parities part at bit p. -/
theorem parityBelow_eq_iff {v w : Word} (hp : v.getLsbD p ≠ w.getLsbD p) (h : ∀ q ≠ p, v.getLsbD q = w.getLsbD q)
    (n : Nat) : parityBelow n v = parityBelow n w ↔ n ≤ p := by
  induction n with
  | zero => exact iff_of_true rfl p.zero_le
  | succ n ih =>
    rw [parityBelow, parityBelow]
    by_cases hn : n = p
    · subst hn
      rw [ih.2 le_rfl, Bool.xor_left_inj]
      exact iff_of_false hp (by omega)
    · rw [h n hn, Bool.xor_right_inj, ih]
      omega

/-- Two states that fit in n bits are equal if those bits are. -/
theorem eq_of_getLsbD_eq_below {n : Nat} (ha : a.toNat < 2 ^ n) (hb : b.toNat < 2 ^ n)
    (h : ∀ q < n, a.getLsbD q = b.getLsbD q) : a = b := by
  refine BitVec.eq_of_getLsbD_eq fun q _ => ?_
  obtain hlt | hge := Nat.lt_or_ge q n
  · exact h q hlt
  · have hpow := Nat.pow_le_pow_right (n := 2) (by decide) hge
    exact (Nat.testBit_lt_two_pow (ha.trans_le hpow)).trans (Nat.testBit_lt_two_pow (hb.trans_le hpow)).symm

/-- The step is injective on the states that fit in size bits: it keeps every bit but the top one, and the top one is
tapped, so the feedback bit tells it. -/
theorem lfsrNext_injOn (ht : HighestSetBit t p) (ha : a.toNat < 2 ^ (p + 1)) (hb : b.toNat < 2 ^ (p + 1))
    (h : lfsrNext t a = lfsrNext t b) : a = b := by
  have hsize := tapSize_eq ht
  have hp : p < 32 := by
    have hle := tapSize_le t
    omega
  obtain ⟨htop, hzero⟩ := ht
  have hlow : ∀ q < p, a.getLsbD q = b.getLsbD q := fun q hq => by
    rw [← lfsrNext_getLsbD_succ (t := t) a (by omega), h, lfsrNext_getLsbD_succ b (by omega)]
  have hparity : parity (a &&& t) = parity (b &&& t) := by
    rw [← lfsrNext_getLsbD_zero, h, lfsrNext_getLsbD_zero]
  refine eq_of_getLsbD_eq_below ha hb fun q hq => ?_
  obtain hlt | rfl := Nat.lt_or_eq_of_le (Nat.le_of_lt_succ hq)
  · exact hlow q hlt
  by_contra hne
  have hdiffer : (a &&& t).getLsbD q ≠ (b &&& t).getLsbD q := by simpa [htop] using hne
  have hagree : ∀ i ≠ q, (a &&& t).getLsbD i = (b &&& t).getLsbD i := fun i hi => by
    rw [BitVec.getLsbD_and, BitVec.getLsbD_and]
    obtain hlt | hgt := Nat.lt_or_gt_of_ne hi
    · rw [hlow i hlt]
    · rw [hzero i hgt, Bool.and_false, Bool.and_false]
  exact absurd ((parityBelow_eq_iff hdiffer hagree 32).1 hparity) (Nat.not_le.2 hp)

theorem lfsrNext_lt (ht : HighestSetBit t p) (a : Word) : (lfsrNext t a).toNat < 2 ^ (p + 1) :=
  tapSize_eq ht ▸ lfsrStep_state_lt a t

theorem lfsrNext_iterate_injOn (ht : HighestSetBit t p) (k : Nat) (ha : a.toNat < 2 ^ (p + 1))
    (hb : b.toNat < 2 ^ (p + 1)) (h : (lfsrNext t)^[k] a = (lfsrNext t)^[k] b) : a = b := by
  induction k generalizing a b with
  | zero => exact h
  | succ k ih => exact lfsrNext_injOn ht ha hb (ih (lfsrNext_lt ht a) (lfsrNext_lt ht b) h)

/-! ### Streams -/

/-- The first size(T) bits of the stream tell the state. -/
theorem eq_of_lfsrDrawn_eq (ht : HighestSetBit t p) (ha : a.toNat < 2 ^ (p + 1)) (hb : b.toNat < 2 ^ (p + 1))
    (h : ∀ n < p + 1, lfsrDrawn a t n = lfsrDrawn b t n) : a = b := by
  have hsize := tapSize_eq ht
  have hlt (x : Word) : ((lfsrNext t)^[p + 1] x).toNat < 2 ^ (p + 1) := by
    rw [Function.iterate_succ_apply']
    exact lfsrNext_lt ht _
  refine lfsrNext_iterate_injOn ht (p + 1) ha hb (eq_of_getLsbD_eq_below (hlt a) (hlt b) fun j hj => ?_)
  rw [lfsrNext_iterate_getLsbD a t _ (by omega), lfsrNext_iterate_getLsbD b t _ (by omega), if_pos hj, if_pos hj,
    h _ (by omega)]

/-- Bit 0 lies within every tap mask. -/
theorem getLsbD_zero_and_tapMask (x t : Word) : (x &&& tapMask t).getLsbD 0 = x.getLsbD 0 := by
  rw [BitVec.getLsbD_and, tapMask, BitVec.getLsbD_ofNat, Nat.testBit_two_pow_sub_one, decide_eq_true (tapSize_pos t)]
  simp

/-- Settles O27: equal streams draw the same size(T) bits, hence started from one state; and the default DIFF_SEED_XOR has
bit 0 set, which no mask clears. -/
theorem distinctStatesGiveDistinctStreams : Obligations.DistinctStatesGiveDistinctStreams := by
  refine ⟨fun a b t p ht ha hb hne h => hne (eq_of_lfsrDrawn_eq ht ha hb fun n hn => ?_), fun s hx h => ?_⟩
  · have hn8 : n < 8 * ((p + 1 + 7) / 8) := by omega
    rw [← lfsrBytes_getLsbD a t _ hn8, h, lfsrBytes_getLsbD b t _ hn8]
  · rw [State.confusionSeed, State.diffusionSeed, hx] at h
    have hbit : s.keySeed.getLsbD 0 = (s.keySeed ^^^ 0x00A5A5A5).getLsbD 0 := by
      rw [← getLsbD_zero_and_tapMask, h, getLsbD_zero_and_tapMask]
    simp at hbit

end Sys2Proof.Machine
end

section
/-! PROOF. The cipher pipeline (43_pipeline R211, R212, R214): what ENCRYPT and DECRYPT make of the state, and that the second
undoes the first. -/

namespace Sys2Proof.Machine

variable {s : State}

/-! ### Buffers XORed with a keystream -/

theorem IsPerm.getD_lt {idx : List Nat} {n g : Nat} (h : IsPerm idx n) (hg : g < idx.length) : idx.getD g 0 < n := by
  rw [List.getD_eq_getElem _ 0 hg]
  exact h.1 _ (List.getElem_mem hg)

@[simp] theorem State.pipelineKeystream_length (s : State) : s.pipelineKeystream.length = 3 * s.groups :=
  lfsrBytes_length ..

/-- A byte of the confused buffer (43_pipeline R211 step 2). -/
theorem State.confused_getD (s : State) {k : Nat} (hk : k < 3 * s.groups) :
    s.confused.getD k 0 = s.pixRead k ^^^ s.pipelineKeystream.getD k 0 := by
  rw [xorBytes_getD _ _ k (by simpa using hk) (by simpa using hk), s.pixels_getD _ k hk]

/-- A buffer XORed with a keystream before it is written, byte by byte. -/
theorem State.pixRead_pixWrite_xorBytes (s : State) {vs ks : List Byte} {k : Nat} (hv : k < vs.length)
    (hk : k < ks.length) :
    (s.pixWrite 0 (xorBytes vs ks)).pixRead k = (s.pixWrite 0 vs).pixRead k ^^^ ks.getD k 0 := by
  rw [State.pixRead_pixWrite, State.pixRead_pixWrite, xorBytes_length, if_pos (by omega), if_pos (by omega),
    Nat.sub_zero, xorBytes_getD vs ks k hv hk]

/-- The array ENCRYPT draws is a permutation of its groups (42_diffusion R188). -/
theorem isPerm_pipelineShuffle (hs : s.ShapeOk) : IsPerm s.pipelineShuffle s.groups :=
  isPerm_shuffle _ _ _ (s.shapeOk_iff.1 hs).1 (State.groups_le_of_shapeOk hs)

/-! ### What each command makes of the state (43_pipeline R211, R212) -/

/-- ENCRYPT on operands that pass its checks: the confused bytes gathered, and the array and its length stored. -/
theorem exec_encrypt_of_ok (hs : s.ShapeOk) (ht : s.keyTaps ≠ 0) :
    ∃ t, exec .encrypt s = .next t ∧
      (∀ g < s.groups, ∀ c < 3, t.pixRead (3 * g + c) = s.pixRead (3 * s.pipelineShuffle.getD g 0 + c) ^^^
        s.pipelineKeystream.getD (3 * s.pipelineShuffle.getD g 0 + c) 0) ∧
      (∀ k, 3 * s.groups ≤ k → t.pixRead k = s.pixRead k) ∧
      (∀ g < s.groups, t.idxRead g = BitVec.ofNat 32 (s.pipelineShuffle.getD g 0)) ∧
      (∀ g, s.groups ≤ g → t.idxRead g = s.idxRead g) ∧
      t = { s with pixmem := t.pixmem, idxmem := t.idxmem, idxLen := BitVec.ofNat 32 s.groups,
                   err := .success, engine := .idle } := by
  have hlen : s.pipelineShuffle.length = s.groups := shuffle_length ..
  refine ⟨_, execEncrypt_ok hs ht, fun g hg c hc => ?_, fun k hk => ?_, fun g hg => ?_, fun g hg => ?_, ?_⟩
  · have hlt := (isPerm_pipelineShuffle hs).getD_lt (hlen.symm ▸ hg)
    rw [State.finish_pixRead, State.setIdxLen_pixRead, State.idxWrite_pixRead,
      s.pixRead_pixWrite_gather _ (hlen.symm ▸ hg) hc, s.confused_getD (by omega)]
  · rw [State.finish_pixRead, State.setIdxLen_pixRead, State.idxWrite_pixRead,
      s.pixRead_pixWrite_of_le (by simpa using hk)]
  · rw [State.finish_idxRead, State.setIdxLen_idxRead, State.idxRead_idxWrite_indexWords _ (hlen.symm ▸ hg)]
  · rw [State.finish_idxRead, State.setIdxLen_idxRead, State.idxRead_idxWrite_of_le _ (by simpa using hg),
      State.pixWrite_idxRead]
  · simp only [State.finish, State.setIdxLen, State.idxWrite, State.pixWrite]

/-- Settles O20: the three branches of ENCRYPT. -/
theorem encryptConfusesThenDiffuses : Obligations.EncryptConfusesThenDiffuses := by
  refine ⟨decode_encode .encrypt, fun s => ⟨execEncrypt_shape, execEncrypt_noTaps, fun hs ht ksA idx hks hidx => ?_⟩⟩
  obtain ⟨rfl, rfl⟩ : s.pipelineKeystream = ksA ∧ s.pipelineShuffle = idx := ⟨hks, hidx⟩
  exact exec_encrypt_of_ok hs ht

/-- DECRYPT leaves the buffer of UNDIFFUSE XORed with LA's keystream, and changes nothing but PIXMEM. -/
theorem exec_decrypt_eq_undiffuse_xor (hs : s.ShapeOk) (ht : s.keyTaps ≠ 0) (hl : s.idxLen.toNat = s.groups)
    (hp : IsPerm (s.indices s.groups) s.groups) :
    ∃ u t, exec .undiffuse s = .next u ∧ exec .decrypt s = .next t ∧
      (∀ k < 3 * s.groups, t.pixRead k = u.pixRead k ^^^ s.pipelineKeystream.getD k 0) ∧
      (∀ k, 3 * s.groups ≤ k → t.pixRead k = s.pixRead k) ∧
      t = { s with pixmem := t.pixmem, err := .success, engine := .idle } := by
  refine ⟨_, _, execUndiffuse_ok hs hl hp, execDecrypt_ok hs ht hl hp, fun k hk => ?_, fun k hk => ?_, rfl⟩
  · exact s.pixRead_pixWrite_xorBytes (by simpa using hk) (by simpa using hk)
  · exact s.pixRead_pixWrite_of_le (by simpa using hk)

/-- DECRYPT on operands that pass its checks: group g moved to place indices[g], and its bytes XORed there. -/
theorem exec_decrypt_of_ok (hs : s.ShapeOk) (ht : s.keyTaps ≠ 0) (hl : s.idxLen.toNat = s.groups)
    (hp : IsPerm (s.indices s.groups) s.groups) :
    ∃ t, exec .decrypt s = .next t ∧
      (∀ g < s.groups, ∀ c < 3, t.pixRead (3 * (s.idxRead g).toNat + c) =
        s.pixRead (3 * g + c) ^^^ s.pipelineKeystream.getD (3 * (s.idxRead g).toNat + c) 0) ∧
      (∀ k, 3 * s.groups ≤ k → t.pixRead k = s.pixRead k) ∧
      t = { s with pixmem := t.pixmem, err := .success, engine := .idle } := by
  obtain ⟨u, t, hu, hexec, hxor, hout, hframe⟩ := exec_decrypt_eq_undiffuse_xor hs ht hl hp
  obtain ⟨-, hundiffuse⟩ := undiffuseGathersByTheInverse
  obtain ⟨-, -, hundiffuse⟩ := hundiffuse s
  obtain ⟨u', hu', hmoved, -⟩ := hundiffuse hs hl hp
  obtain rfl : u = u' := Host.Outcome.next.inj (hu.symm.trans hu')
  refine ⟨t, hexec, fun g hg c hc => ?_, hout, hframe⟩
  have hlt : (s.idxRead g).toNat < s.groups := hp.1 _ (List.mem_map_of_mem (List.mem_range.2 hg))
  rw [hxor _ (by omega), hmoved g hg c hc]

/-- Settles O21: the four branches of DECRYPT. -/
theorem decryptUndiffusesThenDeconfuses : Obligations.DecryptUndiffusesThenDeconfuses := by
  refine ⟨decode_encode .decrypt, fun s => ⟨execDecrypt_shape, execDecrypt_noTaps, execDecrypt_indices,
    fun hs ht hl hp ksA hks => ?_⟩⟩
  obtain rfl : s.pipelineKeystream = ksA := hks
  exact exec_decrypt_of_ok hs ht hl hp

/-! ### The round trip (43_pipeline R214) -/

/-- LA is built from the key, so one key and one size give one keystream. -/
theorem pipelineKeystream_congr {r : State} (hseed : r.keySeed = s.keySeed) (htaps : r.keyTaps = s.keyTaps)
    (hg : r.groups = s.groups) : r.pipelineKeystream = s.pipelineKeystream := by
  rw [State.pipelineKeystream, State.confusionSeed, hseed, htaps, hg]
  rfl

/-- DECRYPT on a stored permutation idx moves pixel-group g to place idx[g] and XORs its bytes there. -/
theorem exec_decrypt_of_stored {idx : List Nat} (hs : s.ShapeOk) (ht : s.keyTaps ≠ 0)
    (hn : s.idxLen = BitVec.ofNat 32 s.groups) (hlen : idx.length = s.groups) (hp : IsPerm idx s.groups)
    (hidx : ∀ g < s.groups, s.idxRead g = BitVec.ofNat 32 (idx.getD g 0)) :
    ∃ v, exec .decrypt s = .next v ∧
      (∀ g < s.groups, ∀ c < 3, v.pixRead (3 * idx.getD g 0 + c) =
        s.pixRead (3 * g + c) ^^^ s.pipelineKeystream.getD (3 * idx.getD g 0 + c) 0) ∧
      v = { s with pixmem := v.pixmem, err := .success, engine := .idle } := by
  have hle := State.groups_le_of_shapeOk hs
  have hindices := State.indices_eq hlen hp hle hidx
  have hl : s.idxLen.toNat = s.groups := by rw [hn, BitVec.toNat_ofNat, Nat.mod_eq_of_lt (by omega)]
  obtain ⟨v, hv, hpix, -, hframe⟩ := exec_decrypt_of_ok hs ht hl (hindices.symm ▸ hp)
  refine ⟨v, hv, fun g hg c hc => ?_, hframe⟩
  have hplace : (s.idxRead g).toNat = idx.getD g 0 := by rw [← s.indices_getD s.groups g hg, hindices]
  rw [← hplace, hpix g hg c hc]

/-- Settles O36: DECRYPT takes the array ENCRYPT stored, moves group g, which is group idx[g] of the confused buffer, back to
place idx[g], and XORs each byte a second time with one keystream byte. -/
theorem decryptInvertsEncrypt : Obligations.DecryptInvertsEncrypt := by
  intro s hs ht
  obtain ⟨t, hexec, hpix, -, hidx, -, hframe⟩ := exec_encrypt_of_ok hs ht
  obtain ⟨htp, hth, htw⟩ : t.params = s.params ∧ t.height = s.height ∧ t.width = s.width := by
    rw [hframe]
    exact ⟨rfl, rfl, rfl⟩
  have htg : t.groups = s.groups := (congrArg State.groups hframe).trans rfl
  have hts : t.ShapeOk := (congrArg State.ShapeOk hframe).mpr hs
  have hperm := isPerm_pipelineShuffle hs
  have hlen : s.pipelineShuffle.length = s.groups := shuffle_length ..
  refine ⟨t, hexec, congrArg State.err hframe, fun r hb ⟨hrlen, hridx⟩ hseed htaps => ?_⟩
  have hrg : r.groups = s.groups := (groups_eq_of_sameBuffer hb).trans htg
  have hrs : r.ShapeOk := (shapeOk_iff_of_sameBuffer hb).2 hts
  obtain ⟨hrp, hrh, hrw, hrpix⟩ := hb
  rw [htg] at hridx hrpix
  obtain ⟨v, hv, hvpix, hvframe⟩ := exec_decrypt_of_stored (idx := s.pipelineShuffle) hrs (htaps ▸ ht)
    (hrg.symm ▸ hrlen.trans (congrArg State.idxLen hframe)) (hrg.symm ▸ hlen) (hrg.symm ▸ hperm)
    (hrg.symm ▸ fun g hg => (hridx g hg).trans (hidx g hg))
  rw [hrg, pipelineKeystream_congr hseed htaps hrg] at hvpix
  refine ⟨v, hv, congrArg State.err hvframe, (congrArg State.params hvframe).trans (hrp.trans htp),
    (congrArg State.height hvframe).trans (hrh.trans hth), (congrArg State.width hvframe).trans (hrw.trans htw),
    fun k hk => ?_⟩
  obtain ⟨g, hg, c, hc, rfl⟩ := hperm.exists_byte hlen hk
  rw [hvpix g hg c hc, hrpix _ (by omega), hpix g hg c hc, BitVec.xor_assoc, BitVec.xor_self, BitVec.xor_zero]

end Sys2Proof.Machine
end

section
/-! PROOF. The primitive commands that ENCRYPT and DECRYPT equal (43_pipeline R213): the three on unit 0 confuse the buffer,
before DIFFUSE or after UNDIFFUSE. -/

namespace Sys2Proof.Machine

variable {s : State}

theorem andThen_eq_next {r : Result} {f : State → Result} {t v : State} (hr : r = .next t) (hf : f t = .next v) :
    andThen r f = .next v := by
  rw [hr]
  exact hf

/-- The state after successful commands that write unit 0, KSMEM and PIXMEM alone. -/
def State.driven (s : State) (x : LfsrRegs) (ks pix : List Host.Cell) : State :=
  { s with unit0 := x, ksmem := ks, pixmem := pix, err := .success, engine := .idle }

/-- CONFUSE with KS_LEN = 3n uses each keystream byte once (41_confusion R161). -/
theorem exec_confuse_uncycled (hs : s.ShapeOk) (hl : s.ksLen.toNat = 3 * s.groups)
    (hmax : s.ksLen.toNat ≤ s.params.ksMax) :
    ∃ pix, exec .confuse s = .next { s with pixmem := pix, err := .success, engine := .idle } ∧
      ∀ k < s.ksLen.toNat, State.pixRead { s with pixmem := pix } k = s.pixRead k ^^^ s.ksRead k := by
  have hn := (s.shapeOk_iff.1 hs).1
  refine ⟨_, execConfuse_ok hs (by omega) hmax, fun k hk => ?_⟩
  have hread := (s.pixRead_pixWrite_cyclicConfused k).trans (if_pos (hl ▸ hk))
  rwa [Nat.mod_eq_of_lt hk] at hread

/-- LFSR_SEED 0, LFSR_GENKS 0, CONFUSE with KS_LEN = 3n: the buffer XORed with the stream of unit 0's seed. -/
theorem seed_genks_confuse (hs : s.ShapeOk) (ht : s.unit0.taps ≠ 0) (hl : s.ksLen.toNat = 3 * s.groups)
    (hmax : 3 * s.groups ≤ s.params.ksMax) :
    ∃ x ks pix, andThen (andThen (exec (.lfsrSeed .u0) s) (exec (.lfsrGenks .u0))) (exec .confuse) =
        .next (s.driven x ks pix) ∧
      ∀ k < 3 * s.groups, (s.driven x ks pix).pixRead k = s.pixRead k ^^^
        (lfsrBytes (s.unit0.seed &&& tapMask s.unit0.taps) s.unit0.taps (3 * s.groups)).1.getD k 0 := by
  rw [← hl] at hmax ⊢
  obtain ⟨x, hseed, hact, hstate⟩ : ∃ x, exec (.lfsrSeed .u0) s = .next (s.driven x s.ksmem s.pixmem) ∧
      x.actTaps = s.unit0.taps ∧ x.state = s.unit0.seed &&& tapMask s.unit0.taps :=
    ⟨_, execLfsrSeed_ok (u := .u0) ht, rfl, rfl⟩
  obtain ⟨y, ks, hgenks, hks⟩ : ∃ y ks, exec (.lfsrGenks .u0) (s.driven x s.ksmem s.pixmem) =
      .next (s.driven y ks s.pixmem) ∧ ∀ k < s.ksLen.toNat, (s.driven y ks s.pixmem).ksRead k =
        (lfsrBytes x.state x.actTaps s.ksLen.toNat).1.getD k 0 := by
    refine ⟨_, _, execLfsrGenks_ok (u := .u0) (hact.symm ▸ ht) hmax, fun k hk => ?_⟩
    refine (State.ksRead_ksWrite ..).trans (if_pos ⟨k.zero_le, ?_⟩)
    rw [Nat.zero_add, lfsrBytes_length]
    exact hk
  obtain ⟨pix, hconfuse, hpix⟩ := exec_confuse_uncycled (s := s.driven y ks s.pixmem) hs hl hmax
  refine ⟨y, ks, pix, andThen_eq_next (andThen_eq_next hseed hgenks) hconfuse, fun k hk => ?_⟩
  rw [← hstate, ← hact, ← hks k hk]
  exact hpix k hk

/-- 3n as KS_LEN holds it: every buffer's length fits in 32 bits. -/
theorem toNat_ofNat_three_mul_groups (hs : s.ShapeOk) : (BitVec.ofNat 32 (3 * s.groups)).toNat = 3 * s.groups := by
  have hle := State.groups_le_of_shapeOk hs
  rw [BitVec.toNat_ofNat, Nat.mod_eq_of_lt (by omega)]

/-- The state R213 starts the primitive commands of ENCRYPT from: the key in both units, its seed XORed for unit 1. -/
def State.encryptPreload (s : State) : State :=
  { s with
    unit0 := { s.unit0 with seed := s.keySeed, taps := s.keyTaps }
    unit1 := { s.unit1 with seed := s.keySeed ^^^ s.params.diffSeedXor, taps := s.keyTaps }
    ksLen := BitVec.ofNat 32 (3 * s.groups) }

/-- Settles O37: the three commands on unit 0 confuse the buffer with LA's stream, and unit 1, seeded as LB, draws the array
ENCRYPT draws. -/
theorem encryptEqualsItsPrimitives : Obligations.EncryptEqualsItsPrimitives := by
  intro s hs ht hmax
  obtain ⟨t, hexec, hpix, -, hidx, -, hframe⟩ := exec_encrypt_of_ok hs ht
  obtain ⟨x, ks, pix, hconfuse, hxor⟩ :=
    seed_genks_confuse (s := s.encryptPreload) hs ht (toNat_ofNat_three_mul_groups hs) hmax
  obtain ⟨y, hseed, hact, hstate⟩ : ∃ y, exec (.lfsrSeed .u1) (s.encryptPreload.driven x ks pix) =
      .next { s.encryptPreload.driven x ks pix with unit1 := y } ∧
      y.actTaps = s.keyTaps ∧ y.state = s.diffusionSeed := ⟨_, execLfsrSeed_ok (u := .u1) ht, rfl, rfl⟩
  have hdraw : shuffle s.params.mode s.groups y.state y.actTaps =
      (s.pipelineShuffle, (shuffle s.params.mode s.groups s.diffusionSeed s.keyTaps).2) := by rw [hact, hstate]
  obtain ⟨-, -, hdiffuse⟩ := diffuseGathersByItsShuffle
  obtain ⟨-, -, hdiffuse⟩ := hdiffuse .u1 { s.encryptPreload.driven x ks pix with unit1 := y }
  obtain ⟨v, hv, hvpix, -, hvidx, -, hvframe⟩ := hdiffuse hs (hact.symm ▸ ht) _ _ hdraw
  have htg : t.groups = s.groups := (congrArg State.groups hframe).trans rfl
  obtain ⟨hp, hh, hw, hlen⟩ :
      v.params = t.params ∧ v.height = t.height ∧ v.width = t.width ∧ v.idxLen = t.idxLen := by
    rw [hframe, hvframe]
    exact ⟨rfl, rfl, rfl, rfl⟩
  refine ⟨t, v, hexec, congrArg State.err hframe, andThen_eq_next (andThen_eq_next hconfuse hseed) hv,
    congrArg State.err hvframe, ⟨hp, hh, hw, fun k hk => ?_⟩, hlen, fun g hg => ?_⟩
  · rw [htg] at hk
    have hg : k / 3 < s.groups := by omega
    have hc : k % 3 < 3 := by omega
    have hlt := (isPerm_pipelineShuffle hs).getD_lt (g := k / 3) (hg.trans_eq (shuffle_length ..).symm)
    rw [← Nat.div_add_mod k 3, hpix _ hg _ hc]
    exact (hvpix _ hg _ hc).trans (hxor _ (show _ < 3 * s.groups by omega))
  · rw [htg] at hg
    exact (hvidx g hg).trans (hidx g hg).symm

/-- The state R213 starts the primitive commands of DECRYPT from: the key in unit 0. -/
def State.decryptPreload (s : State) : State :=
  { s with
    unit0 := { s.unit0 with seed := s.keySeed, taps := s.keyTaps }
    ksLen := BitVec.ofNat 32 (3 * s.groups) }

/-- Settles O38: UNDIFFUSE leaves the same buffer from the preloaded state, and the three commands on unit 0 XOR it with LA's
stream. -/
theorem decryptEqualsItsPrimitives : Obligations.DecryptEqualsItsPrimitives := by
  intro s hs ht hmax hl hp
  obtain ⟨u, t, hu, hexec, hxor, -, hframe⟩ := exec_decrypt_eq_undiffuse_xor hs ht hl hp
  have hundiffuse : exec .undiffuse s.decryptPreload =
      .next { s.decryptPreload with pixmem := u.pixmem, err := .success, engine := .idle } := by
    obtain rfl := Host.Outcome.next.inj (hu.symm.trans (execUndiffuse_ok hs hl hp))
    exact execUndiffuse_ok (s := s.decryptPreload) hs hl hp
  obtain ⟨x, ks, pix, hconfuse, hvxor⟩ := seed_genks_confuse
    (s := { s.decryptPreload with pixmem := u.pixmem, err := .success, engine := .idle }) hs ht
    (toNat_ofNat_three_mul_groups hs) hmax
  have hchain := congrArg (fun r => andThen (andThen (andThen r (exec (.lfsrSeed .u0))) (exec (.lfsrGenks .u0)))
    (exec .confuse)) hundiffuse
  have htg : t.groups = s.groups := (congrArg State.groups hframe).trans rfl
  obtain ⟨htp, hth, htw⟩ : s.params = t.params ∧ s.height = t.height ∧ s.width = t.width := by
    rw [hframe]
    exact ⟨rfl, rfl, rfl⟩
  refine ⟨t, _, hexec, congrArg State.err hframe, hchain.trans hconfuse, rfl, htp, hth, htw, fun k hk => ?_⟩
  rw [htg] at hk
  rw [hxor k hk]
  exact hvxor k hk

end Sys2Proof.Machine
end

section
/-! PROOF. What the pipeline neither reads nor writes (43_pipeline R210): each branch of ENCRYPT and DECRYPT is taken by the
state with other units, BIT_OUT, KS_LEN and KSMEM as well, and writes the same values. -/

namespace Sys2Proof.Machine

variable {s : State}

/-- The state with other units, BIT_OUT, KS_LEN and KSMEM. -/
def State.withUnread (s : State) (a b : LfsrRegs) (o : Bool) (l : Word) (m : List Host.Cell) : State :=
  { s with unit0 := a, unit1 := b, bitOut := o, ksLen := l, ksmem := m }

/-- The state with what a pipeline command may write: PIXMEM, IDXMEM, IDX_LEN, and ERR and BUSY at its end. -/
def State.pipelineWrites (s : State) (pix : List Host.Cell) (idx : List (Nat × Word)) (n : Word) (e : ErrCode) : State :=
  { s with pixmem := pix, idxmem := idx, idxLen := n, err := e, engine := .idle }

/-- A meaning writes the same values, whatever stands where it does not read. -/
abbrev WritesUnreading (f : State → Result) (s : State) : Prop :=
  ∃ pix idx n e, ∀ a b o l m, f (s.withUnread a b o l m) = .next ((s.withUnread a b o l m).pipelineWrites pix idx n e)

/-- A failing check that does not read there. -/
theorem writesUnreading_of_failed {f : State → Result} (e : ErrCode)
    (h : ∀ a b o l m, f (s.withUnread a b o l m) = .next ((s.withUnread a b o l m).finish e)) : WritesUnreading f s :=
  ⟨s.pixmem, s.idxmem, s.idxLen, e, h⟩

theorem execEncrypt_unreading (s : State) : WritesUnreading execEncrypt s := by
  by_cases hs : s.ShapeOk
  · by_cases ht : s.keyTaps = 0
    · exact writesUnreading_of_failed _ fun _ _ _ _ _ => execEncrypt_noTaps hs ht
    · exact ⟨(s.pixWrite 0 (gather (fun k => s.confused.getD k 0) s.pipelineShuffle)).pixmem,
        (s.idxWrite 0 (indexWords s.pipelineShuffle)).idxmem, BitVec.ofNat 32 s.groups, .success,
        fun a b o l m => execEncrypt_ok (s := s.withUnread a b o l m) hs ht⟩
  · exact writesUnreading_of_failed _ fun _ _ _ _ _ => execEncrypt_shape hs

theorem execDecrypt_unreading (s : State) : WritesUnreading execDecrypt s := by
  by_cases hs : s.ShapeOk
  · by_cases ht : s.keyTaps = 0
    · exact writesUnreading_of_failed _ fun _ _ _ _ _ => execDecrypt_noTaps hs ht
    by_cases hl : s.idxLen.toNat = s.groups
    · by_cases hp : IsPerm (s.indices s.groups) s.groups
      · exact ⟨(s.pixWrite 0 (xorBytes (gather s.pixRead (inverse (s.indices s.groups) s.groups))
          s.pipelineKeystream)).pixmem, s.idxmem, s.idxLen, .success,
          fun a b o l m => execDecrypt_ok (s := s.withUnread a b o l m) hs ht hl hp⟩
      · exact writesUnreading_of_failed _ fun _ _ _ _ _ => execDecrypt_indices hs ht (.inr hp)
    · exact writesUnreading_of_failed _ fun _ _ _ _ _ => execDecrypt_indices hs ht (.inl hl)
  · exact writesUnreading_of_failed _ fun _ _ _ _ _ => execDecrypt_shape hs

/-- Settles O41: the values a pipeline command writes are those it writes from the state as it is. -/
theorem pipelineIsSelfContained : Obligations.PipelineIsSelfContained := by
  intro i s a b o l m hi
  have h : WritesUnreading (exec i) s := by
    obtain rfl | rfl := hi
    · exact execEncrypt_unreading s
    · exact execDecrypt_unreading s
  obtain ⟨pix, idx, n, e, h⟩ := h
  exact ⟨s.pipelineWrites pix idx n e, h s.unit0 s.unit1 s.bitOut s.ksLen s.ksmem,
    rfl, rfl, rfl, rfl, rfl, rfl, rfl, rfl, rfl, h a b o l m⟩

end Sys2Proof.Machine
end

section
/-! PROOF. The command NOP (44_system R230): the completion is all it does. -/

namespace Sys2Proof.Machine

/-- NOP is its own completion: no check can fail before it (44_system R230). -/
theorem exec_nop (s : State) : exec .nop s = .next (s.finish .success) := rfl

/-- Settles O13: the word of NOP is its encoding, and with U = 1 it fails the check on the unit. -/
theorem nopOnlyCompletes : Obligations.NopOnlyCompletes :=
  ⟨decode_encode .nop, by decide, exec_nop⟩

end Sys2Proof.Machine
end

section
/-! PROOF. How a step and a command end (60_exceptions R240, R243, R244, R248, R249, R260): a next state always, the code of
the first check that fails with nothing else changed, and the violation mark kept. -/

namespace Sys2Proof.Machine

variable {s t : State}

/-! ### The engine's turn -/

theorem engineTurn_illegal {w : Word} {why : IllegalReason} (h : s.engine = .busy w) (hd : decode w = .illegal why) :
    engineTurn s = .next (s.finish .illegalCommand) := by
  simp only [engineTurn, h, hd]
  rfl

/-- Settles O6: the engine's turn on an illegal word, in each of its two forms. -/
theorem illegalWordEndsInIllegalCommand : Obligations.IllegalWordEndsInIllegalCommand := by
  intro s w why he hd
  exact ⟨fun h => (step_nil h).trans (engineTurn_illegal he hd),
    fun rest h => (step_engine h).trans (engineTurn_illegal he hd)⟩

/-- Settles O8: a host transaction and a reset are functions of the state, and every command answers a next state. -/
theorem everyStepAnswersANextState : Obligations.EveryStepAnswersANextState := by
  intro s
  obtain ⟨-, hs⟩ | ⟨rest, -, hs⟩ | ⟨x, rest, -, hs⟩ | ⟨rest, -, hs⟩ := step_cases s
  · exact hs ▸ engineTurn_total s
  · exact hs ▸ engineTurn_total { s with inputs := rest }
  · exact ⟨_, hs⟩
  · exact ⟨_, hs⟩

/-! ### The end of a command -/

/-- What changes more than ERR and BUSY is a success (60_exceptions R244). -/
theorem Did.success_or_only_ended {i : Instr} (h : Did s i t) : t.err = .success ∨ t = s.finish t.err := by
  cases h with
  | ended => exact .inr rfl
  | _ => exact .inl rfl

/-- Settles O10: each thing a command can do leaves the engine IDLE, in success or with ERR and BUSY alone changed. -/
theorem commandsSucceedOrChangeNothing : Obligations.CommandsSucceedOrChangeNothing := by
  intro i s
  obtain ⟨t, ht, hd⟩ := exec_did i s
  exact ⟨t, ht, hd.engine_eq, hd.success_or_only_ended⟩

/-! ### The code a command reports (60_exceptions R248) -/

/-- The answer is a next state with this result code. -/
abbrev Reports (r : Result) (e : ErrCode) : Prop := ∃ t, r = .next t ∧ t.err = e

theorem reports_of_finish {r : Result} {e : ErrCode} (h : r = .next (t.finish e)) : Reports r e := ⟨_, h, rfl⟩

/-- A check that fails is what the command reports; one that passes leaves it to the rest. -/
theorem reports_check {r : Result} {p : Prop} [Decidable p] {e f : ErrCode} (hp : p → r = .next (s.finish e))
    (hn : ¬ p → Reports r f) : Reports r (if p then e else f) := by
  split
  · exact reports_of_finish (hp ‹_›)
  · exact hn ‹_›

/-- The shape is the first check of the commands on the buffer. -/
theorem reports_shape {r : Result} {f : ErrCode} (hn : ¬ s.ShapeOk → r = .next (s.finish .shapeMismatch))
    (hs : s.ShapeOk → Reports r f) : Reports r (if ¬ s.ShapeOk then .shapeMismatch else f) :=
  reports_check hn fun h => hs (not_not.1 h)

/-- The length and the entries of the index array report one code, and are checked last. -/
theorem reports_indices {r : Result}
    (hn : s.idxLen.toNat ≠ s.groups ∨ ¬ IsPerm (s.indices s.groups) s.groups →
      r = .next (s.finish .invalidPermutation))
    (hs : s.idxLen.toNat = s.groups → IsPerm (s.indices s.groups) s.groups → r = .next (t.finish .success)) :
    Reports r (if s.idxLen.toNat ≠ s.groups ∨ ¬ IsPerm (s.indices s.groups) s.groups then .invalidPermutation
      else .success) :=
  reports_check hn fun h =>
    have ⟨hl, hp⟩ := not_or.1 h
    reports_of_finish (hs (not_not.1 hl) (not_not.1 hp))

/-- Settles O11: the branches of each command, one check after the other. -/
theorem checksAreReportedInOrder : Obligations.ChecksAreReportedInOrder := by
  intro s u
  refine ⟨fun w why he hd => reports_of_finish (engineTurn_illegal he hd), reports_of_finish (exec_nop s),
    ?lfsrSeed, ?lfsrStep, ?lfsrGenks, ?confuse, ?diffuse, ?undiffuse, ?encrypt, ?decrypt⟩
  case lfsrSeed => exact reports_check execLfsrSeed_noTaps fun ht => reports_of_finish (execLfsrSeed_ok ht)
  case lfsrStep => exact reports_check execLfsrStep_noTaps fun ht => reports_of_finish (execLfsrStep_ok ht)
  case lfsrGenks =>
    exact reports_check execLfsrGenks_noTaps fun ht => reports_check (execLfsrGenks_tooLong ht) fun hl =>
      reports_of_finish (execLfsrGenks_ok ht (Nat.not_lt.1 hl))
  case confuse =>
    have hzero : s.ksLen = 0 ↔ s.ksLen.toNat = 0 := BitVec.toNat_inj.symm
    refine reports_shape execConfuse_shape fun hs =>
      reports_check (fun hl => execConfuse_length hs (hl.imp_left hzero.1)) fun hl => ?_
    obtain ⟨h1, h2⟩ := not_or.1 hl
    exact reports_of_finish (execConfuse_ok hs (mt hzero.2 h1) (Nat.not_lt.1 h2))
  case diffuse =>
    exact reports_shape execDiffuse_shape fun hs => reports_check (execDiffuse_noTaps hs) fun ht =>
      reports_of_finish (execDiffuse_ok hs ht)
  case undiffuse =>
    exact reports_shape execUndiffuse_shape fun hs => reports_indices (execUndiffuse_indices hs) (execUndiffuse_ok hs)
  case encrypt =>
    exact reports_shape execEncrypt_shape fun hs => reports_check (execEncrypt_noTaps hs) fun ht =>
      reports_of_finish (execEncrypt_ok hs ht)
  case decrypt =>
    exact reports_shape execDecrypt_shape fun hs => reports_check (execDecrypt_noTaps hs) fun ht =>
      reports_indices (execDecrypt_indices hs ht) (execDecrypt_ok hs ht)

/-! ### The check of the index array (60_exceptions R249) -/

theorem State.mem_indices (s : State) {n v : Nat} : v ∈ s.indices n ↔ ∃ g < n, (s.idxRead g).toNat = v := by
  simp [State.indices]

/-- No two entries of the array are equal: the array is injective on its places. -/
theorem State.nodup_indices (s : State) (n : Nat) :
    (s.indices n).Nodup ↔ ∀ g < n, ∀ h < n, (s.idxRead g).toNat = (s.idxRead h).toNat → g = h := by
  rw [State.indices, List.nodup_map_iff_inj_on List.nodup_range]
  simp only [List.mem_range]

/-- Settles O12: n values below n, no two equal, meet every value below n; and one place for each value makes the array
injective. -/
theorem indexCheckIsBijectivity : Obligations.IndexCheckIsBijectivity := by
  intro s n
  constructor
  · intro hp
    have hinj := (s.nodup_indices n).1 hp.2
    refine ⟨fun g hg => hp.1 _ (s.mem_indices.2 ⟨g, hg, rfl⟩), fun v hv => ?_⟩
    obtain ⟨g, hg, hgv⟩ := s.mem_indices.1 (hp.mem (s.indices_length n) hv)
    exact ⟨g, hg, hgv, fun h hh hhv => hinj h hh g hg (hhv.trans hgv.symm)⟩
  · rintro ⟨hlt, hex⟩
    refine ⟨fun v hv => ?_, (s.nodup_indices n).2 fun g hg h hh heq => ?_⟩
    · obtain ⟨g, hg, rfl⟩ := s.mem_indices.1 hv
      exact hlt g hg
    · obtain ⟨k, -, -, hk⟩ := hex _ (hlt g hg)
      exact (hk g hg rfl).trans (hk h hh heq.symm).symm

/-! ### The violation mark (60_exceptions R260 (b)) -/

theorem State.writeTarget_violation (s : State) (v : Word) (g : Target) :
    (s.writeTarget v g).violation = (s.violation || g = .busError) := by
  cases g with
  | reg r => cases r <;> simp [State.writeTarget, State.writeReg]
  | _ => simp [State.writeTarget]

theorem hostTransaction_violation (x : HostTxn) (h : s.violation = true) : (hostTransaction x s).violation = true := by
  cases x with
  | read a =>
    rw [hostTransaction]
    by_cases hb : busTarget s.params a.toNat = .busError
    · rw [hostRead_busError a s hb]
    · rw [hostRead_of_ne a s hb]
      exact h
  | write a v =>
    rw [hostTransaction, hostWrite]
    split
    · exact s.noteOverrun_violation
    · rw [s.writeTarget_violation, h, Bool.true_or]

theorem engineTurn_violation (h : engineTurn s = .next t) : t.violation = s.violation := by
  obtain ⟨-, rfl⟩ | ⟨w, i, -, -, hd⟩ | ⟨w, why, -, -, rfl⟩ := engineTurn_next_cases h
  · rfl
  · obtain ⟨-, -, hv⟩ := hd.sticky_eq
    exact hv
  · rfl

/-- Settles O60: the engine's turn and a reset leave the mark, and a host transaction can only set it. -/
theorem violationIsNeverCleared : Obligations.ViolationIsNeverCleared := by
  intro s t hv h
  obtain ⟨-, h⟩ | ⟨x, rest, -, rfl⟩ | ⟨rest, -, rfl⟩ := step_next_cases h
  · exact (engineTurn_violation h).trans hv
  · exact hostTransaction_violation x hv
  · exact hv

end Sys2Proof.Machine
end

section
/-! PROOF. The host bus and the reset input while a command runs (70_reset R271 to R274, R280, R281, R283): what a write and
a read do by their target, a command that answers the same whatever the host has done, and the memories an abort leaves. -/

namespace Sys2Proof.Machine

variable {s : State}

/-! ### Writes while BUSY -/

/-- Settles O53: an unreachable address, STATUS, and everything else, each by its writing rule. -/
theorem writesWhileBusyAreDropped : Obligations.WritesWhileBusyAreDropped := by
  intro s a v h
  by_cases hu : Unreachable s.params a.toNat
  · rw [if_pos hu]
    exact hostWrite_busError v ((unreachable_iff _ _).1 hu)
  rw [if_neg hu]
  by_cases ha : a = 0x024
  · rw [if_pos ha, ha]
    exact hostWrite_status v s
  · rw [if_neg ha]
    exact hostWrite_busy_dropped v h rfl (mt (unreachable_iff _ _).2 hu) (mt busTarget_eq_status ha)

/-! ### Reads while BUSY -/

/-- A read takes the word of its target to the port, and a bus error's word is 0 (20_memory R72, R79). -/
theorem hostRead_lastRead (a : BusAddr) (s : State) :
    (hostRead a s).lastRead = s.readTarget (busTarget s.params a.toNat) := by
  by_cases h : busTarget s.params a.toNat = .busError
  · rw [hostRead_busError a s h, h]
    rfl
  · rw [hostRead_of_ne a s h]

/-- The bus address of a register (10_state R34). -/
theorem regMap_toNat_ofNat {off : Nat} {r : Reg} (hm : (off, r) ∈ regMap) : (BitVec.ofNat 26 off).toNat = off := by
  obtain ⟨-, hlt, -⟩ := regMap_row _ hm
  rw [BitVec.toNat_ofNat, Nat.mod_eq_of_lt (hlt.trans (by decide))]

/-- Settles O54: CMD and STATUS by the invariant, every other location by its target and the bound on the write set. -/
theorem readsOutsideTheWriteSetAreExact : Obligations.ReadsOutsideTheWriteSetAreExact := by
  intro s
  refine ⟨fun w hinv hw => ?running, fun off r hm hr => ?reg, fun g hg hout => ?idx, fun a ha c hc hout => ?pix,
    fun a ha c hc hout => ?ks⟩
  case running =>
    have hb : s.isBusy = true := s.isBusy_iff.2 ⟨w, hw⟩
    obtain ⟨-, -, hstatus⟩ := statusHasItsFields
    obtain ⟨⟨x, hx, hbusy, -, -, hoverrun, hbuserr, -, herr⟩, -⟩ := hstatus s 0
    obtain ⟨hcmd, -⟩ := hinv.busy w hw
    exact ⟨(hostRead_reg_lastRead (r := .cmd) (by decide) (by decide)).trans hcmd,
      x, hx, hbusy.trans hb, herr hinv hb, hoverrun, hbuserr⟩
  case reg =>
    have hm' : ((BitVec.ofNat 26 off).toNat, r) ∈ regMap := (regMap_toNat_ofNat hm).symm ▸ hm
    rw [hostRead_reg hm' (by simpa [State.regBusy] using hr)]
  case idx => rw [hostRead_lastRead, busTarget_idxAddr _ hg, State.readTarget, if_neg (Nat.not_lt.2 hout)]
  case pix =>
    rw [hostRead_lastRead, busTarget_pixAddr _ ha, s.readTarget_pix_byte _ c hc, if_neg (Nat.not_lt.2 hout)]
  case ks =>
    rw [hostRead_lastRead, busTarget_ksAddr _ ha, s.readTarget_ks_byte _ c hc, if_neg (Nat.not_lt.2 hout)]

/-! ### A running command and the host -/

/-- The state s with what a host transaction while BUSY may change taken from v (10_state R62): the sticky bits, and the
model's own mark, port and count. -/
def State.withHostFields (s v : State) : State :=
  { s with overrun := v.overrun, buserr := v.buserr, violation := v.violation, lastRead := v.lastRead, draws := v.draws }

/-- Two answers that differ by the host's fields of v alone. -/
abbrev SameButHostFields (v : State) (r r' : Result) : Prop := ∃ t, r = .next t ∧ r' = .next (t.withHostFields v)

theorem sameButHostFields_next {v t : State} : SameButHostFields v (.next t) (.next (t.withHostFields v)) := ⟨t, rfl, rfl⟩

/-- A check that does not read the host's fields goes the same way for both. -/
theorem sameButHostFields_check {v : State} {p : Prop} [Decidable p] {a a' b b' : Result} (hp : SameButHostFields v a a')
    (hn : SameButHostFields v b b') : SameButHostFields v (if p then a else b) (if p then a' else b') := by
  split
  · exact hp
  · exact hn

/-- A command whose checks and results read the registers and memories alone answers the same whatever the host's fields
are: one check after the other, then its writes. -/
theorem exec_withHostFields (i : Instr) (s v : State) :
    SameButHostFields v (exec i s) (exec i (s.withHostFields v)) := by
  have ended {t : State} := sameButHostFields_next (v := v) (t := t)
  cases i with
  | nop => exact ended
  | lfsrSeed u | lfsrStep u => cases u <;> exact sameButHostFields_check ended ended
  | lfsrGenks u => cases u <;> exact sameButHostFields_check ended (sameButHostFields_check ended ended)
  | confuse | encrypt => exact sameButHostFields_check ended (sameButHostFields_check ended ended)
  | diffuse u => cases u <;> exact sameButHostFields_check ended (sameButHostFields_check ended ended)
  | undiffuse => exact sameButHostFields_check ended (sameButHostFields_check ended (sameButHostFields_check ended ended))
  | decrypt =>
    exact sameButHostFields_check ended
      (sameButHostFields_check ended (sameButHostFields_check ended (sameButHostFields_check ended ended)))

/-- Settles O55: while BUSY a host transaction changes the host's fields alone, and no command reads them. -/
theorem hostCannotDisturbARunningCommand : Obligations.HostCannotDisturbARunningCommand := by
  intro i x s hb
  have hv : hostTransaction x s = s.withHostFields (hostTransaction x s) := hostTransaction_busy x s hb
  obtain ⟨t, ht, ht'⟩ := exec_withHostFields i s (hostTransaction x s)
  exact ⟨t, hostTransaction x s, ht, rfl, hv, (congrArg (exec i) hv).trans ht'⟩

/-! ### Reset -/

theorem State.running_of_illegal {w : Word} {why : IllegalReason} (h : s.engine = .busy w) (hd : decode w = .illegal why) :
    s.running = none := by
  simp [State.running, h, hd, Decoded.toInstr]

theorem State.running_of_command {w : Word} {i : Instr} (h : s.engine = .busy w) (hd : decode w = .command i) :
    s.running = some i := by
  simp [State.running, h, hd, Decoded.toInstr]

/-- With no command to abort a reset keeps the memories as they are (70_reset R274). -/
theorem applyReset_memories_of_running_none (h : s.running = none) :
    (applyReset s).pixmem = s.pixmem ∧ (applyReset s).idxmem = s.idxmem ∧ (applyReset s).ksmem = s.ksmem := by
  simp [applyReset, State.abort, State.pixBusy, State.idxBusy, State.ksBusy, h, freeBytes, freeWords, Memory.writeFrom]

/-! A reset leaves the memories as the abort does (70_reset R273). -/

theorem applyReset_pixRead (s : State) (k : Nat) : (applyReset s).pixRead k = s.abort.pixRead k := by
  simp only [State.pixRead, applyReset]

theorem applyReset_idxRead (s : State) (g : Nat) : (applyReset s).idxRead g = s.abort.idxRead g := by
  simp only [State.idxRead, applyReset]

theorem applyReset_ksRead (s : State) (k : Nat) : (applyReset s).ksRead k = s.abort.ksRead k := by
  simp only [State.ksRead, applyReset]

/-- Settles O57: the registers by the reset state, the memories by what an abort leaves of the running command's, if one runs. -/
theorem resetClearsRegistersAndKeepsMemory : Obligations.ResetClearsRegistersAndKeepsMemory := by
  intro s
  refine ⟨rfl, fun h => ?idle, fun w i h hd => ?aborted, fun w why h hd => ?illegal⟩
  case idle => exact applyReset_memories_of_running_none (State.running_of_idle (s.isBusy_eq_false_iff.2 h))
  case aborted =>
    have hr := State.running_of_command h hd
    have hpix : s.pixBusy = s.pixWriteSet i := by simp [State.pixBusy, hr]
    have hidx : s.idxBusy = s.idxWriteSet i := by simp [State.idxBusy, hr]
    have hks : s.ksBusy = s.ksWriteSet i := by simp [State.ksBusy, hr]
    exact ⟨fun k hk => (applyReset_pixRead s k).trans (s.pixRead_abort k (hpix.trans_le hk)),
      fun g hg => (applyReset_idxRead s g).trans (s.idxRead_abort g (hidx.trans_le hg)),
      fun k hk => (applyReset_ksRead s k).trans (s.ksRead_abort k (hks.trans_le hk))⟩
  case illegal => exact applyReset_memories_of_running_none (State.running_of_illegal h hd)

end Sys2Proof.Machine
end
